-- ==== Sys2Proof/Word.lean ====
section
/-! DEFINITION. The word types of the dmg-01 CORE (00_scope.md R7): the 8-bit general register and port word, and the
16-bit register pair. Every value is unsigned (R8). -/

namespace Sys2Proof

/-- An 8-bit value: a general register, the packed flags byte, or a port word (R7). -/
abbrev Byte := BitVec 8

/-- A 16-bit value: a register pair (R7). -/
abbrev Word := BitVec 16

end Sys2Proof
end

