-- ==== Sys2Proof/Syntax/Selectors.lean ====
section
/-! DEFINITION. The operand selectors and the Instruction value as 30_encoding.md R70 writes it: a closed tagged union
with no other variant and no default register (R71). -/

namespace Sys2Proof

/-- The selector of an 8-bit register (R70, R73); the host port selects the same seven registers (R31, R32). -/
inductive ArithmeticTarget where
  | a | b | c | d | e | h | l
  deriving DecidableEq, Repr

/-- The selector of ADDHL's 16-bit source (R70); `sp` names no storage (R29, R73). -/
inductive AddHlTarget where
  | bc | de | hl | sp
  deriving DecidableEq, Repr

/-- The Instruction value (R70): four implemented variants, then the seven reserved ones (D10). -/
inductive Instruction where
  | add (t : ArithmeticTarget)
  | adc (t : ArithmeticTarget)
  | sub (t : ArithmeticTarget)
  | addhl (p : AddHlTarget)
  | sbc (t : ArithmeticTarget)
  | and (t : ArithmeticTarget)
  | or (t : ArithmeticTarget)
  | xor (t : ArithmeticTarget)
  | cp (t : ArithmeticTarget)
  | inc (t : ArithmeticTarget)
  | dec (t : ArithmeticTarget)
  deriving DecidableEq, Repr

end Sys2Proof
end

