-- ==== Sys2Proof/Syntax.lean ====
section
/-! DEFINITION. The instructions: one constructor for each row of spec/opcode_table.json (30_encoding.md R80, R81). The 74
rows are the 74 values of R70's Instruction union, each with its selector in its name; `Instr.value` in Decode.lean gives
that value. -/

namespace Sys2Proof

/-- One constructor per assigned port word (R80, R81). No instruction has an operand besides its selector (R73, R79). -/
inductive Instr where
  -- ADD: 8-bit add, R122
  | addB | addC | addD | addE | addH | addL | addA
  -- ADC: 8-bit add with carry, R123
  | adcB | adcC | adcD | adcE | adcH | adcL | adcA
  -- SUB: 8-bit subtract, R124
  | subB | subC | subD | subE | subH | subL | subA
  -- ADDHL: 16-bit add to HL, R141 and R144
  | addhlBc | addhlDe | addhlHl | addhlSp
  -- SBC: reserved, R104
  | sbcB | sbcC | sbcD | sbcE | sbcH | sbcL | sbcA
  -- AND: reserved, R104
  | andB | andC | andD | andE | andH | andL | andA
  -- XOR: reserved, R104
  | xorB | xorC | xorD | xorE | xorH | xorL | xorA
  -- OR: reserved, R104
  | orB | orC | orD | orE | orH | orL | orA
  -- CP: reserved, R104
  | cpB | cpC | cpD | cpE | cpH | cpL | cpA
  -- INC: reserved, R104
  | incB | incC | incD | incE | incH | incL | incA
  -- DEC: reserved, R104
  | decB | decC | decD | decE | decH | decL | decA
  deriving DecidableEq, Repr

end Sys2Proof
end

