-- ==== Sys2Proof/WellFormed.lean ====
section
/-! DEFINITION. What is well formed at the CORE's two ports. An Instr is a value of a closed union, so every term of it is
well formed (30_encoding.md R71, R74: "an input outside the type cannot occur at this layer"). What can be ill formed is a
port word (R83) and a register selector code of the host port (10_state.md R39), and each has its check. -/

namespace Sys2Proof

/-- Every Instruction value is well formed (R74). -/
def Instr.wf (_ : Instr) : Bool := true

/-- The port words R80 and R81 list, written as those rules list them (ranges of words), not as decode reads them. -/
def assignedWord (w : Byte) : Bool :=
  -- R80: ADD, ADC, SUB of a register, then ADDHL
  (0x80 ≤ w.toNat && w.toNat ≤ 0x97 && w.toNat % 8 != 6)
  || List.contains [0x09, 0x19, 0x29, 0x39] w.toNat
  -- R81: SBC, AND, XOR, OR, CP, with 0x9E, 0xA6, 0xAE, 0xB6 and 0xBE left out
  || (0x98 ≤ w.toNat && w.toNat ≤ 0xBF && !(List.contains [0x9E, 0xA6, 0xAE, 0xB6, 0xBE] w.toNat))
  -- R81: INC, then DEC
  || List.contains [0x04, 0x0C, 0x14, 0x1C, 0x24, 0x2C, 0x3C] w.toNat
  || List.contains [0x05, 0x0D, 0x15, 0x1D, 0x25, 0x2D, 0x3D] w.toNat

/-- A register selector code of the host port names a register: every 3-bit code but 6 (R39). -/
def registerCodeWf (code : BitVec 3) : Bool := code != 6#3

end Sys2Proof
end

