-- ==== Sys2Proof/Decode.lean ====
section
/-! DEFINITION. The Instruction value of each table row (30_encoding.md R70), decoding of a port word (R75 to R84) and its
encoding (R75 to R81). The port word is the spec's own encoding (D4). -/

namespace Sys2Proof

/-- The Instruction value of R70 that a table row stands for (R80, R81). -/
def Instr.value : Instr → Instruction
  | .addB => .add .b
  | .addC => .add .c
  | .addD => .add .d
  | .addE => .add .e
  | .addH => .add .h
  | .addL => .add .l
  | .addA => .add .a
  | .adcB => .adc .b
  | .adcC => .adc .c
  | .adcD => .adc .d
  | .adcE => .adc .e
  | .adcH => .adc .h
  | .adcL => .adc .l
  | .adcA => .adc .a
  | .subB => .sub .b
  | .subC => .sub .c
  | .subD => .sub .d
  | .subE => .sub .e
  | .subH => .sub .h
  | .subL => .sub .l
  | .subA => .sub .a
  | .addhlBc => .addhl .bc
  | .addhlDe => .addhl .de
  | .addhlHl => .addhl .hl
  | .addhlSp => .addhl .sp
  | .sbcB => .sbc .b
  | .sbcC => .sbc .c
  | .sbcD => .sbc .d
  | .sbcE => .sbc .e
  | .sbcH => .sbc .h
  | .sbcL => .sbc .l
  | .sbcA => .sbc .a
  | .andB => .and .b
  | .andC => .and .c
  | .andD => .and .d
  | .andE => .and .e
  | .andH => .and .h
  | .andL => .and .l
  | .andA => .and .a
  | .xorB => .xor .b
  | .xorC => .xor .c
  | .xorD => .xor .d
  | .xorE => .xor .e
  | .xorH => .xor .h
  | .xorL => .xor .l
  | .xorA => .xor .a
  | .orB => .or .b
  | .orC => .or .c
  | .orD => .or .d
  | .orE => .or .e
  | .orH => .or .h
  | .orL => .or .l
  | .orA => .or .a
  | .cpB => .cp .b
  | .cpC => .cp .c
  | .cpD => .cp .d
  | .cpE => .cp .e
  | .cpH => .cp .h
  | .cpL => .cp .l
  | .cpA => .cp .a
  | .incB => .inc .b
  | .incC => .inc .c
  | .incD => .inc .d
  | .incE => .inc .e
  | .incH => .inc .h
  | .incL => .inc .l
  | .incA => .inc .a
  | .decB => .dec .b
  | .decC => .dec .c
  | .decD => .dec .d
  | .decE => .dec .e
  | .decH => .dec .h
  | .decL => .dec .l
  | .decA => .dec .a

/-- One of seven, by the selector: the closed case split of R71. -/
def ArithmeticTarget.select {α : Type} (ia ib ic id ie ih il : α) : ArithmeticTarget → α
  | .a => ia
  | .b => ib
  | .c => ic
  | .d => id
  | .e => ie
  | .h => ih
  | .l => il

/-- The table row of an Instruction value (R80, R81). -/
def Instruction.toInstr : Instruction → Instr
  | .add t => t.select .addA .addB .addC .addD .addE .addH .addL
  | .adc t => t.select .adcA .adcB .adcC .adcD .adcE .adcH .adcL
  | .sub t => t.select .subA .subB .subC .subD .subE .subH .subL
  | .addhl .bc => .addhlBc
  | .addhl .de => .addhlDe
  | .addhl .hl => .addhlHl
  | .addhl .sp => .addhlSp
  | .sbc t => t.select .sbcA .sbcB .sbcC .sbcD .sbcE .sbcH .sbcL
  | .and t => t.select .andA .andB .andC .andD .andE .andH .andL
  | .xor t => t.select .xorA .xorB .xorC .xorD .xorE .xorH .xorL
  | .or t => t.select .orA .orB .orC .orD .orE .orH .orL
  | .cp t => t.select .cpA .cpB .cpC .cpD .cpE .cpH .cpL
  | .inc t => t.select .incA .incB .incC .incD .incE .incH .incL
  | .dec t => t.select .decA .decB .decC .decD .decE .decH .decL

/-! ## Fields of the port word -/

/-- The r field's value for a register (R77). -/
def ArithmeticTarget.code : ArithmeticTarget → BitVec 3
  | .b => 0b000#3
  | .c => 0b001#3
  | .d => 0b010#3
  | .e => 0b011#3
  | .h => 0b100#3
  | .l => 0b101#3
  | .a => 0b111#3

/-- The register an r field selects; 110 selects none (R77). -/
def targetOf (r : BitVec 3) : Option ArithmeticTarget :=
  if r = 0b000#3 then some .b
  else if r = 0b001#3 then some .c
  else if r = 0b010#3 then some .d
  else if r = 0b011#3 then some .e
  else if r = 0b100#3 then some .h
  else if r = 0b101#3 then some .l
  else if r = 0b110#3 then none
  else some .a

/-- The p field's value for an ADDHL source (R78). -/
def AddHlTarget.code : AddHlTarget → BitVec 2
  | .bc => 0b00#2
  | .de => 0b01#2
  | .hl => 0b10#2
  | .sp => 0b11#2

/-- The ADDHL source a p field selects (R78). -/
def addHlTargetOf (p : BitVec 2) : AddHlTarget :=
  if p = 0b00#2 then .bc
  else if p = 0b01#2 then .de
  else if p = 0b10#2 then .hl
  else .sp

/-- The variant an op field of format R8 selects (R76). -/
def variantOf (op : BitVec 3) (t : ArithmeticTarget) : Instruction :=
  if op = 0b000#3 then .add t
  else if op = 0b001#3 then .adc t
  else if op = 0b010#3 then .sub t
  else if op = 0b011#3 then .sbc t
  else if op = 0b100#3 then .and t
  else if op = 0b101#3 then .xor t
  else if op = 0b110#3 then .or t
  else .cp t

/-! ## Decoding -/

/-- What a port word decodes to (R82): an instruction, or unassigned, which keeps the word as R83's info. -/
inductive Decoded where
  | instr (i : Instr)
  | unassigned (w : Byte)
  deriving DecidableEq, Repr

/-- R82's decode on Instruction values, test for test. -/
def decodeValue (w : Byte) : Option Instruction :=
  if w.extractLsb' 6 2 = 0b10#2 then
    if w.extractLsb' 0 3 = 0b110#3 then none
    else (targetOf (w.extractLsb' 0 3)).map (variantOf (w.extractLsb' 3 3))
  else if w.extractLsb' 6 2 = 0b00#2 ∧ w.extractLsb' 0 4 = 0b1001#4 then
    some (.addhl (addHlTargetOf (w.extractLsb' 4 2)))
  else if w.extractLsb' 6 2 = 0b00#2 ∧ w.extractLsb' 1 2 = 0b10#2 ∧ w.extractLsb' 3 3 ≠ 0b110#3 then
    (targetOf (w.extractLsb' 3 3)).map fun t => if w.extractLsb' 0 1 = 0#1 then .inc t else .dec t
  else none

/-- Decoding of a port word (R82), total on all 256 words. -/
def decode (w : Byte) : Decoded :=
  match decodeValue w with
  | some v => .instr v.toInstr
  | none => .unassigned w

/-- Decoding of a stream of port words: each word alone, one word long, no prefix (R75, R84). -/
def decodeStream (ws : List Byte) : List Decoded :=
  ws.map decode

/-! ## Encoding -/

/-- Format R8 (R75): `10 op r`. -/
def formatR8 (op : BitVec 3) (t : ArithmeticTarget) : Byte :=
  0b10#2 ++ op ++ t.code

/-- Format P16 (R75): `00 p 1001`. -/
def formatP16 (p : AddHlTarget) : Byte :=
  0b00#2 ++ p.code ++ 0b1001#4

/-- Format U8 (R75): `00 r 10 d`. -/
def formatU8 (t : ArithmeticTarget) (d : BitVec 1) : Byte :=
  0b00#2 ++ t.code ++ 0b10#2 ++ d

/-- The port word of an Instruction value (R75 to R78, R80, R81). -/
def Instruction.encode : Instruction → Byte
  | .add t => formatR8 0b000#3 t
  | .adc t => formatR8 0b001#3 t
  | .sub t => formatR8 0b010#3 t
  | .sbc t => formatR8 0b011#3 t
  | .and t => formatR8 0b100#3 t
  | .xor t => formatR8 0b101#3 t
  | .or t => formatR8 0b110#3 t
  | .cp t => formatR8 0b111#3 t
  | .addhl p => formatP16 p
  | .inc t => formatU8 t 0#1
  | .dec t => formatU8 t 1#1

/-- The port word of an instruction. -/
def encode (i : Instr) : Byte :=
  i.value.encode

/-! ## The opcode table's numbering -/

/-- The port word the table numbers `w` with `nbits` bits: one word, its bit 0 the least significant (R8, R75;
DESIGN CHOICE, log entry 11, safe). -/
def tableWord (nbits w : Nat) : Byte :=
  BitVec.ofNat 8 (w % 2 ^ nbits)

/-- The instruction the decoder reads from the table's word `w`, none where it decodes to unassigned. -/
def decodeTableWord (nbits w : Nat) : Option Instr :=
  match decode (tableWord nbits w) with
  | .instr i => some i
  | .unassigned _ => none

end Sys2Proof
end

