-- ==== Sys2Proof/Config.lean ====
section
/-! DEFINITION. The fixed parameters of the CORE (00_scope.md R7) and the one open parameter of its caller
(92_eei_decisions.md D19). The spec leaves no value of the CORE itself open, so there is no free value here. -/

namespace Sys2Proof

/-- The caller's reaction to an error status (60_exceptions.md R164; D19: `halt`, `log_and_continue` or `skip`). -/
inductive OnFault where
  | halt
  | logAndContinue
  | skip
  deriving DecidableEq, Repr

namespace Config

/-- The largest sum of two low parts that sets no half-carry. The 8-bit add compares a sum of nibbles with it (R120);
the 16-bit add compares a sum of low BYTES with the same number, the quirk that R140 and D9 keep. -/
abbrev halfCarryLimit : Nat := 0xF

/-- The largest 8-bit sum that sets no carry (R120). -/
abbrev carryLimit8 : Nat := 255

/-- The largest 16-bit sum that sets no carry (R140). -/
abbrev carryLimit16 : Nat := 65535

/-- DESIGN CHOICE (log entry 2), unsafe: the reaction a caller has at reset to every error status. D19 leaves it OPEN;
no statement rests on this value. -/
abbrev onFaultAtReset : OnFault := .logAndContinue

end Config

end Sys2Proof
end

