-- ==== Sys2Proof/Machine/State.lean ====
section
/-! DEFINITION. The state of one CORE (10_state.md R20: its Register File and nothing more), the transactions its caller
issues (00_scope.md R11), what a transaction returns, and the state after reset (R44, R190). -/

namespace Sys2Proof.Machine

/-- The Flags Register: four independent booleans, all 16 combinations legal (R23). -/
structure Flags where
  z : Bool
  n : Bool
  h : Bool
  c : Bool
  deriving DecidableEq, Repr

/-- The Register File: R20's record, the whole architectural state of the CORE (60 bits). -/
structure RegisterFile where
  a : Byte
  b : Byte
  c : Byte
  d : Byte
  e : Byte
  h : Byte
  l : Byte
  flags : Flags
  deriving DecidableEq, Repr

/-- The register pairs the host can name (R26, R33, R34); AF exists by D3. They are views, not storage. -/
inductive Pair where
  | bc | de | hl | af
  deriving DecidableEq, Repr

/-- The flags the host can name (R36). -/
inductive FlagName where
  | z | n | h | c
  deriving DecidableEq, Repr

/-- What UnsupportedInstruction records (60_exceptions.md R160): the Instruction value, or the port word where decode gave
Unassigned. -/
inductive Info where
  | instr (i : Instr)
  | word (w : Byte)
  deriving DecidableEq, Repr

/-- The status an Execute returns (R160). -/
inductive Status where
  | ok
  | unsupportedInstruction (info : Info)
  | ambiguousSemantics (i : Instr)
  deriving DecidableEq, Repr

/-- The caller's `onFault : Status -> {halt, log_and_continue, skip}` (R164, D19) as plain data: the reaction to each status
listed, and the reaction to every other. Statuses are finitely many, so every such function is one of these. -/
structure FaultPolicy where
  special : List (Status × OnFault)
  otherwise : OnFault
  deriving DecidableEq, Repr

/-- The host's accesses to the Register File (R31 to R37). -/
inductive HostAccess where
  | readReg (r : ArithmeticTarget)
  | writeReg (r : ArithmeticTarget) (v : Byte)
  | getPair (p : Pair)
  | setPair (p : Pair) (v : Word)
  | readFlags
  | readFlag (f : FlagName)
  | writeFlags (b : Byte)
  deriving DecidableEq, Repr

/-- The same accesses at the wire-level host port, with selector codes (R39). -/
inductive WireAccess where
  | readReg (code : BitVec 3)
  | writeReg (code : BitVec 3) (v : Byte)
  | getPair (code : BitVec 2)
  | setPair (code : BitVec 2) (v : Word)
  | readFlags
  | readFlag (code : BitVec 2)
  | writeFlags (b : Byte)
  deriving DecidableEq, Repr

/-- The transactions of the CORE (R11): Construct (R190), Execute on an Instruction value (R100) or on a port word (R101), and
the host's accesses, by name or by selector code. -/
inductive Transaction where
  | construct
  | execute (i : Instr)
  | executeWord (w : Byte)
  | host (q : HostAccess)
  | wire (q : WireAccess)
  deriving DecidableEq, Repr

/-- What a transaction returns to the caller: nothing (Construct and the writes), a status (R160), or the value read, marked
with what was read where a bit of it is fixed by the spec (R31, R33, R35, R36). -/
inductive Reply where
  | done
  | status (st : Status)
  | regValue (v : Byte)
  | pairValue (p : Pair) (v : Word)
  | flagsByte (b : Byte)
  | flagValue (v : Bool)
  deriving DecidableEq, Repr

/-- One CORE instance and the caller that drives it. `rf` is all the CORE stores (R20); the other fields are the instance's
existence (R193) and the caller's side of the interface (log entries 1 to 4). -/
structure State where
  /-- The CORE's architectural state (R20). -/
  rf : RegisterFile
  /-- Whether the instance has been constructed (R193, K10). -/
  constructed : Bool
  /-- What the last transaction returned. -/
  reply : Reply
  /-- The transactions the caller will issue, the next one first (R56). -/
  pending : List Transaction
  /-- The caller's reaction to an error status (R164, D19). -/
  onFault : FaultPolicy
  /-- The error statuses a log_and_continue caller has recorded, oldest first. -/
  log : List Status
  deriving DecidableEq, Repr

/-- Why a run stops. -/
inductive Fault where
  /-- Raised by `transact` for any transaction but Construct on an instance that was never constructed: the spec defines no
  transaction there (R193, K10: stuck). Safe. -/
  | notConstructed
  /-- Raised by `State.react` where the caller halts on UnsupportedInstruction (R164, D19); never by Execute itself. Safe. -/
  | unsupportedInstruction (info : Info)
  /-- Raised by `State.react` where the caller halts on AmbiguousSemantics (R164, D19); never by Execute itself. Safe. -/
  | ambiguousSemantics (i : Instr)
  deriving DecidableEq, Repr

/-- What has no meaning. -/
inductive Refusal where
  /-- An instruction whose meaning is not written yet. No arm of exec raises it in this model. Safe. -/
  | notModelled (mnemonic : String)
  /-- Raised by `wireAccess` for a ReadReg or WriteReg with selector code 6, which the port refuses (R39, K11). Safe. -/
  | registerCode6
  deriving DecidableEq, Repr

/-- Every register and every flag zero (R44). -/
def RegisterFile.zero : RegisterFile where
  a := 0
  b := 0
  c := 0
  d := 0
  e := 0
  h := 0
  l := 0
  flags := { z := false, n := false, h := false, c := false }

/-- Right after reset, which is Construct (R190): the Register File as R44 says. The caller's fields are DESIGN CHOICES (log
entries 1, 2 and 4). -/
def State.reset : State where
  rf := .zero
  constructed := true
  reply := .done
  pending := []
  onFault := { special := [], otherwise := Config.onFaultAtReset }
  log := []

end Sys2Proof.Machine
end

