-- ==== Sys2Proof/Machine/Flags.lean ====
section
/-! DEFINITION. The flags byte (10_state.md R24, R25) and the ALU primitives with every flag they write (41_alu8.md R120, R121;
42_alu16.md R140). Sums are computed exactly, as natural numbers, and narrowed at the end. -/

namespace Sys2Proof.Machine

/-! ## Bit fields (00_scope.md R8) -/

/-- `v[3:0]` as a number. -/
def lowNibble (v : Byte) : Nat := v.toNat % 16

/-- `v[7:0]` of a pair's value as a number. -/
def lowByte (v : Word) : Nat := v.toNat % 256

/-- A boolean as the number 0 or 1 (R8). -/
def bit (b : Bool) : Nat := b.toNat

/-! ## The flags byte -/

/-- pack(F): Z, N, H, C in bits 7 to 4, and bits 3 to 0 hardwired to 0 (R24, R40). -/
def Flags.pack (f : Flags) : Byte :=
  BitVec.ofBool f.z ++ BitVec.ofBool f.n ++ BitVec.ofBool f.h ++ BitVec.ofBool f.c ++ 0#4

/-- unpack(b): bits 7 to 4; bits 3 to 0 are ignored (R25). -/
def Flags.unpack (b : Byte) : Flags where
  z := b.getLsbD 7
  n := b.getLsbD 6
  h := b.getLsbD 5
  c := b.getLsbD 4

/-- One flag by name (R36). -/
def Flags.get (f : Flags) : FlagName → Bool
  | .z => f.z
  | .n => f.n
  | .h => f.h
  | .c => f.c

/-! ## ALU primitives -/

/-- The result and the four flags of a primitive; every primitive writes all four (C2). -/
structure AluResult (width : Nat) where
  value : BitVec width
  flags : Flags
  deriving DecidableEq, Repr

/-- add8's carry-in: the carry flag as it was when Execute began, where it is used (R120, R105). -/
def carryIn (f : Flags) (useCarry : Bool) : Nat :=
  if useCarry then bit f.c else 0

/-- add8 (R120). -/
def add8 (f : Flags) (x y : Byte) (useCarry : Bool) : AluResult 8 :=
  let sum := x.toNat + y.toNat + carryIn f useCarry
  { value := BitVec.ofNat 8 sum
    flags :=
      { z := BitVec.ofNat 8 sum == 0#8
        n := false
        h := decide (lowNibble x + lowNibble y + carryIn f useCarry > Config.halfCarryLimit)
        c := decide (sum > Config.carryLimit8) } }

/-- sub8 (R121); the half-carry is the borrow from bit 4 (D8). -/
def sub8 (x y : Byte) : AluResult 8 :=
  let difference : Int := (x.toNat : Int) - y.toNat
  { value := BitVec.ofInt 8 difference
    flags :=
      { z := BitVec.ofInt 8 difference == 0#8
        n := true
        h := decide (lowNibble y > lowNibble x)
        c := decide (y.toNat > x.toNat) } }

/-- add16 (R140); the half-carry tests the low BYTE sum against the nibble limit (D9, C8). -/
def add16 (x y : Word) : AluResult 16 :=
  let sum := x.toNat + y.toNat
  { value := BitVec.ofNat 16 sum
    flags :=
      { z := BitVec.ofNat 16 sum == 0#16
        n := false
        h := decide (lowByte x + lowByte y > Config.halfCarryLimit)
        c := decide (sum > Config.carryLimit16) } }

end Sys2Proof.Machine
end

