-- ==== Sys2Proof/Machine/Operands.lean ====
section
/-! DEFINITION. Every operand form: the registers by selector (00_scope.md R9, 30_encoding.md R73), the pair view, high byte
first (10_state.md R26 to R28, 20_memory.md R52), and the host port's selector codes (10_state.md R39). -/

namespace Sys2Proof.Machine

/-! ## Pairs as two bytes -/

/-- `high ++ low` (R8, R26). -/
def joinBytes (high low : Byte) : Word := high ++ low

/-- `v[15:8]` (R27). -/
def highHalf (v : Word) : Byte := v.extractLsb' 8 8

/-- `v[7:0]` (R27). -/
def lowHalf (v : Word) : Byte := v.extractLsb' 0 8

/-! ## Registers -/

/-- reg8(t) (R9). -/
def RegisterFile.reg8 (rf : RegisterFile) : ArithmeticTarget → Byte
  | .a => rf.a
  | .b => rf.b
  | .c => rf.c
  | .d => rf.d
  | .e => rf.e
  | .h => rf.h
  | .l => rf.l

/-- reg8(t) <- v (R9, R32). -/
def RegisterFile.setReg8 (rf : RegisterFile) (t : ArithmeticTarget) (v : Byte) : RegisterFile :=
  match t with
  | .a => { rf with a := v }
  | .b => { rf with b := v }
  | .c => { rf with c := v }
  | .d => { rf with d := v }
  | .e => { rf with e := v }
  | .h => { rf with h := v }
  | .l => { rf with l := v }

/-- pair(p) (R26). -/
def RegisterFile.pair (rf : RegisterFile) : Pair → Word
  | .bc => joinBytes rf.b rf.c
  | .de => joinBytes rf.d rf.e
  | .hl => joinBytes rf.h rf.l
  | .af => joinBytes rf.a rf.flags.pack

/-- pair(p) <- v, both halves in one step (R27, R28). -/
def RegisterFile.setPair (rf : RegisterFile) (p : Pair) (v : Word) : RegisterFile :=
  match p with
  | .bc => { rf with b := highHalf v, c := lowHalf v }
  | .de => { rf with d := highHalf v, e := lowHalf v }
  | .hl => { rf with h := highHalf v, l := lowHalf v }
  | .af => { rf with a := highHalf v, flags := Flags.unpack (lowHalf v) }

/-! ## Selector codes of the host port (R39) -/

/-- The pair a code selects: BC, DE, HL, AF. -/
def pairOf (code : BitVec 2) : Pair :=
  if code = 0#2 then .bc
  else if code = 1#2 then .de
  else if code = 2#2 then .hl
  else .af

/-- The flag a code selects; the code plus 4 is the flag's bit in pack(F). -/
def flagOf (code : BitVec 2) : FlagName :=
  if code = 3#2 then .z
  else if code = 2#2 then .n
  else if code = 1#2 then .h
  else .c

/-- The register a code of the host port selects, none for code 6. The codes are those of the instruction port's r field, and
have a definition of their own so that either can be mended alone. -/
def registerOf (code : BitVec 3) : Option ArithmeticTarget :=
  if code = 0#3 then some .b
  else if code = 1#3 then some .c
  else if code = 2#3 then some .d
  else if code = 3#3 then some .e
  else if code = 4#3 then some .h
  else if code = 5#3 then some .l
  else if code = 7#3 then some .a
  else none

/-- The access a wire-level request makes, none where its code selects no register (R39). -/
def WireAccess.access : WireAccess → Option HostAccess
  | .readReg code => (registerOf code).map .readReg
  | .writeReg code v => (registerOf code).map fun r => .writeReg r v
  | .getPair code => some (.getPair (pairOf code))
  | .setPair code v => some (.setPair (pairOf code) v)
  | .readFlags => some .readFlags
  | .readFlag code => some (.readFlag (flagOf code))
  | .writeFlags b => some (.writeFlags b)

/-- The status port's two bits (60_exceptions.md R160); 3 is never returned. -/
def Status.code : Status → BitVec 2
  | .ok => 0#2
  | .unsupportedInstruction _ => 1#2
  | .ambiguousSemantics _ => 2#2

end Sys2Proof.Machine
end

