-- ==== Sys2Proof/Machine/Ops.lean ====
section
/-! DEFINITION. The shared operations of a transaction: completing an Execute, returning an error status (the CORE's only
exception, 60_exceptions.md R160 to R168), the ALU forms over the state, Construct, and the host's accesses. There is no
memory (20_memory.md R50) and no return from an exception (60_exceptions.md R169), so there is no operation for either. -/

namespace Sys2Proof.Machine

/-! ## The two ends of an Execute (00_scope.md R10) -/

/-- `return Ok`: all the writes of one Execute land together (20_memory.md R55). -/
def complete (rf : RegisterFile) (s : State) : Host.Outcome State Fault Refusal :=
  .next { s with rf := rf, reply := .status .ok }

/-- `raise`: the status goes to the caller; no register and no flag is written, no mode changes and nothing is saved (R163,
R165, R168). The next transaction is accepted as usual, so this is a next state and not a stop (DEDUCED, log entry 5, unsafe
where D6 is wrong of an implementation). -/
def raise (st : Status) (s : State) : Host.Outcome State Fault Refusal :=
  .next { s with reply := .status st }

/-! ## ALU forms -/

/-- ADD t and ADC t (R122, R123): A <- add8(A, reg8(t), use_carry), operands read before anything is written (R105). -/
def addToA (t : ArithmeticTarget) (useCarry : Bool) (s : State) : Host.Outcome State Fault Refusal :=
  let r := add8 s.rf.flags s.rf.a (s.rf.reg8 t) useCarry
  complete { s.rf with a := r.value, flags := r.flags } s

/-- SUB t (R124): A <- sub8(A, reg8(t)). -/
def subFromA (t : ArithmeticTarget) (s : State) : Host.Outcome State Fault Refusal :=
  let r := sub8 s.rf.a (s.rf.reg8 t)
  complete { s.rf with a := r.value, flags := r.flags } s

/-- ADDHL p for a pair with storage (R141): pair(HL) <- add16(pair(HL), pair(p)). -/
def addToHl (p : Pair) (s : State) : Host.Outcome State Fault Refusal :=
  let r := add16 (s.rf.pair .hl) (s.rf.pair p)
  complete { s.rf.setPair .hl r.value with flags := r.flags } s

/-! ## Construct and the host's accesses -/

/-- Construct (R190): every register and flag as R44 says, whatever the state was. The caller's fields are not the CORE's
(DEDUCED, log entry 14, safe). -/
def State.construct (s : State) : State :=
  { s with rf := .zero, constructed := true, reply := .done }

/-- A host read: it returns a value and writes nothing (R38). -/
def State.answer (s : State) (r : Reply) : State :=
  { s with reply := r }

/-- A host write: it sets the Register File and returns nothing (R32, R34, R37). -/
def State.store (s : State) (rf : RegisterFile) : State :=
  { s with rf := rf, reply := .done }

/-- The host's accesses (R31 to R37); none can fail. -/
def hostAccess (q : HostAccess) (s : State) : State :=
  match q with
  | .readReg r => s.answer (.regValue (s.rf.reg8 r))
  | .writeReg r v => s.store (s.rf.setReg8 r v)
  | .getPair p => s.answer (.pairValue p (s.rf.pair p))
  | .setPair p v => s.store (s.rf.setPair p v)
  | .readFlags => s.answer (.flagsByte s.rf.flags.pack)
  | .readFlag f => s.answer (.flagValue (s.rf.flags.get f))
  | .writeFlags b => s.store { s.rf with flags := Flags.unpack b }

/-- The wire-level accesses: the access the codes select, refused where they select no register (R39, K11; DEDUCED,
log entry 6, safe). -/
def wireAccess (q : WireAccess) (s : State) : Host.Outcome State Fault Refusal :=
  match q.access with
  | some a => .next (hostAccess a s)
  | none => .refused .registerCode6

/-! ## The caller -/

/-- The reaction `onFault` gives for a status (R164, D19): the first entry listed for it, or the general one
(DESIGN CHOICE, log entry 13, safe). -/
def FaultPolicy.reaction (p : FaultPolicy) (st : Status) : OnFault :=
  match p.special.find? (fun entry => entry.1 = st) with
  | some entry => entry.2
  | none => p.otherwise

/-- The caller reacts to an error status: it halts, with the fault named after the status, records it and goes on, or goes
on. The CORE's state is the same in all three (R164, R165). -/
def State.reactTo (s : State) (st : Status) (halted : Fault) : Host.Outcome State Fault Refusal :=
  match s.onFault.reaction st with
  | .halt => .fault halted
  | .logAndContinue => .next { s with log := s.log ++ [st] }
  | .skip => .next s

/-- The caller receives the reply of an Execute; only an error status asks it for a reaction (R164). -/
def State.react (s : State) : Host.Outcome State Fault Refusal :=
  match s.reply with
  | .status (.unsupportedInstruction info) => s.reactTo (.unsupportedInstruction info) (.unsupportedInstruction info)
  | .status (.ambiguousSemantics i) => s.reactTo (.ambiguousSemantics i) (.ambiguousSemantics i)
  | .status .ok => .next s
  | .done => .next s
  | .regValue _ => .next s
  | .pairValue _ _ => .next s
  | .flagsByte _ => .next s
  | .flagValue _ => .next s

/-- An outcome of Execute as the caller takes it. -/
def handOver (o : Host.Outcome State Fault Refusal) : Host.Outcome State Fault Refusal :=
  match o with
  | .next s => s.react
  | .fault f => .fault f
  | .refused r => .refused r

/-- The caller makes a port word its next transaction (log entry 1). -/
def State.issueWord (s : State) (w : Byte) : State :=
  { s with constructed := true, pending := .executeWord w :: s.pending }

/-- The caller queues a program, one port word per Execute (95_test_vectors.md L3), after what it has queued already. -/
def State.queueProgram (s : State) (ws : List Byte) : State :=
  { s with pending := s.pending ++ ws.map .executeWord }

end Sys2Proof.Machine
end

