-- ==== Sys2Proof/Machine/Adc.lean ====
section
/-! DEFINITION. The ADC family (41_alu8.md R123): one meaning per instruction, each over a shared operation of Machine/Ops.lean. -/

namespace Sys2Proof.Machine

/-- ADC B (R123). -/
def execAdcB (s : State) : Host.Outcome State Fault Refusal :=
  addToA .b true s

/-- ADC C (R123). -/
def execAdcC (s : State) : Host.Outcome State Fault Refusal :=
  addToA .c true s

/-- ADC D (R123). -/
def execAdcD (s : State) : Host.Outcome State Fault Refusal :=
  addToA .d true s

/-- ADC E (R123). -/
def execAdcE (s : State) : Host.Outcome State Fault Refusal :=
  addToA .e true s

/-- ADC H (R123). -/
def execAdcH (s : State) : Host.Outcome State Fault Refusal :=
  addToA .h true s

/-- ADC L (R123). -/
def execAdcL (s : State) : Host.Outcome State Fault Refusal :=
  addToA .l true s

/-- ADC A (R123). -/
def execAdcA (s : State) : Host.Outcome State Fault Refusal :=
  addToA .a true s

end Sys2Proof.Machine
end

