-- ==== Sys2Proof/Machine/Add.lean ====
section
/-! DEFINITION. The ADD family (41_alu8.md R122): one meaning per instruction, each over a shared operation of Machine/Ops.lean. -/

namespace Sys2Proof.Machine

/-- ADD B (R122). -/
def execAddB (s : State) : Host.Outcome State Fault Refusal :=
  addToA .b false s

/-- ADD C (R122). -/
def execAddC (s : State) : Host.Outcome State Fault Refusal :=
  addToA .c false s

/-- ADD D (R122). -/
def execAddD (s : State) : Host.Outcome State Fault Refusal :=
  addToA .d false s

/-- ADD E (R122). -/
def execAddE (s : State) : Host.Outcome State Fault Refusal :=
  addToA .e false s

/-- ADD H (R122). -/
def execAddH (s : State) : Host.Outcome State Fault Refusal :=
  addToA .h false s

/-- ADD L (R122). -/
def execAddL (s : State) : Host.Outcome State Fault Refusal :=
  addToA .l false s

/-- ADD A (R122). -/
def execAddA (s : State) : Host.Outcome State Fault Refusal :=
  addToA .a false s

end Sys2Proof.Machine
end

