-- ==== Sys2Proof/Machine/AddHl.lean ====
section
/-! DEFINITION. The ADDHL family (42_alu16.md R141; R144 for SP): one meaning per instruction, each over a shared operation of Machine/Ops.lean. -/

namespace Sys2Proof.Machine

/-- ADDHL BC (R141). -/
def execAddhlBc (s : State) : Host.Outcome State Fault Refusal :=
  addToHl .bc s

/-- ADDHL DE (R141). -/
def execAddhlDe (s : State) : Host.Outcome State Fault Refusal :=
  addToHl .de s

/-- ADDHL HL (R141). -/
def execAddhlHl (s : State) : Host.Outcome State Fault Refusal :=
  addToHl .hl s

/-- ADDHL SP: always AmbiguousSemantics with the instruction as its info, no write (R144). -/
def execAddhlSp (s : State) : Host.Outcome State Fault Refusal :=
  raise (.ambiguousSemantics .addhlSp) s

end Sys2Proof.Machine
end

