-- ==== Sys2Proof/Machine/Reserved.lean ====
section
/-! DEFINITION. The reserved variants SBC, AND, XOR, OR, CP, INC and DEC (40_dispatch.md R104): each returns
UnsupportedInstruction with the instruction value as its info and writes no register and no flag. -/

namespace Sys2Proof.Machine

/-- SBC B, reserved (R104). -/
def execSbcB (s : State) : Host.Outcome State Fault Refusal :=
  raise (.unsupportedInstruction (.instr .sbcB)) s

/-- SBC C, reserved (R104). -/
def execSbcC (s : State) : Host.Outcome State Fault Refusal :=
  raise (.unsupportedInstruction (.instr .sbcC)) s

/-- SBC D, reserved (R104). -/
def execSbcD (s : State) : Host.Outcome State Fault Refusal :=
  raise (.unsupportedInstruction (.instr .sbcD)) s

/-- SBC E, reserved (R104). -/
def execSbcE (s : State) : Host.Outcome State Fault Refusal :=
  raise (.unsupportedInstruction (.instr .sbcE)) s

/-- SBC H, reserved (R104). -/
def execSbcH (s : State) : Host.Outcome State Fault Refusal :=
  raise (.unsupportedInstruction (.instr .sbcH)) s

/-- SBC L, reserved (R104). -/
def execSbcL (s : State) : Host.Outcome State Fault Refusal :=
  raise (.unsupportedInstruction (.instr .sbcL)) s

/-- SBC A, reserved (R104). -/
def execSbcA (s : State) : Host.Outcome State Fault Refusal :=
  raise (.unsupportedInstruction (.instr .sbcA)) s

/-- AND B, reserved (R104). -/
def execAndB (s : State) : Host.Outcome State Fault Refusal :=
  raise (.unsupportedInstruction (.instr .andB)) s

/-- AND C, reserved (R104). -/
def execAndC (s : State) : Host.Outcome State Fault Refusal :=
  raise (.unsupportedInstruction (.instr .andC)) s

/-- AND D, reserved (R104). -/
def execAndD (s : State) : Host.Outcome State Fault Refusal :=
  raise (.unsupportedInstruction (.instr .andD)) s

/-- AND E, reserved (R104). -/
def execAndE (s : State) : Host.Outcome State Fault Refusal :=
  raise (.unsupportedInstruction (.instr .andE)) s

/-- AND H, reserved (R104). -/
def execAndH (s : State) : Host.Outcome State Fault Refusal :=
  raise (.unsupportedInstruction (.instr .andH)) s

/-- AND L, reserved (R104). -/
def execAndL (s : State) : Host.Outcome State Fault Refusal :=
  raise (.unsupportedInstruction (.instr .andL)) s

/-- AND A, reserved (R104). -/
def execAndA (s : State) : Host.Outcome State Fault Refusal :=
  raise (.unsupportedInstruction (.instr .andA)) s

/-- XOR B, reserved (R104). -/
def execXorB (s : State) : Host.Outcome State Fault Refusal :=
  raise (.unsupportedInstruction (.instr .xorB)) s

/-- XOR C, reserved (R104). -/
def execXorC (s : State) : Host.Outcome State Fault Refusal :=
  raise (.unsupportedInstruction (.instr .xorC)) s

/-- XOR D, reserved (R104). -/
def execXorD (s : State) : Host.Outcome State Fault Refusal :=
  raise (.unsupportedInstruction (.instr .xorD)) s

/-- XOR E, reserved (R104). -/
def execXorE (s : State) : Host.Outcome State Fault Refusal :=
  raise (.unsupportedInstruction (.instr .xorE)) s

/-- XOR H, reserved (R104). -/
def execXorH (s : State) : Host.Outcome State Fault Refusal :=
  raise (.unsupportedInstruction (.instr .xorH)) s

/-- XOR L, reserved (R104). -/
def execXorL (s : State) : Host.Outcome State Fault Refusal :=
  raise (.unsupportedInstruction (.instr .xorL)) s

/-- XOR A, reserved (R104). -/
def execXorA (s : State) : Host.Outcome State Fault Refusal :=
  raise (.unsupportedInstruction (.instr .xorA)) s

/-- OR B, reserved (R104). -/
def execOrB (s : State) : Host.Outcome State Fault Refusal :=
  raise (.unsupportedInstruction (.instr .orB)) s

/-- OR C, reserved (R104). -/
def execOrC (s : State) : Host.Outcome State Fault Refusal :=
  raise (.unsupportedInstruction (.instr .orC)) s

/-- OR D, reserved (R104). -/
def execOrD (s : State) : Host.Outcome State Fault Refusal :=
  raise (.unsupportedInstruction (.instr .orD)) s

/-- OR E, reserved (R104). -/
def execOrE (s : State) : Host.Outcome State Fault Refusal :=
  raise (.unsupportedInstruction (.instr .orE)) s

/-- OR H, reserved (R104). -/
def execOrH (s : State) : Host.Outcome State Fault Refusal :=
  raise (.unsupportedInstruction (.instr .orH)) s

/-- OR L, reserved (R104). -/
def execOrL (s : State) : Host.Outcome State Fault Refusal :=
  raise (.unsupportedInstruction (.instr .orL)) s

/-- OR A, reserved (R104). -/
def execOrA (s : State) : Host.Outcome State Fault Refusal :=
  raise (.unsupportedInstruction (.instr .orA)) s

/-- CP B, reserved (R104). -/
def execCpB (s : State) : Host.Outcome State Fault Refusal :=
  raise (.unsupportedInstruction (.instr .cpB)) s

/-- CP C, reserved (R104). -/
def execCpC (s : State) : Host.Outcome State Fault Refusal :=
  raise (.unsupportedInstruction (.instr .cpC)) s

/-- CP D, reserved (R104). -/
def execCpD (s : State) : Host.Outcome State Fault Refusal :=
  raise (.unsupportedInstruction (.instr .cpD)) s

/-- CP E, reserved (R104). -/
def execCpE (s : State) : Host.Outcome State Fault Refusal :=
  raise (.unsupportedInstruction (.instr .cpE)) s

/-- CP H, reserved (R104). -/
def execCpH (s : State) : Host.Outcome State Fault Refusal :=
  raise (.unsupportedInstruction (.instr .cpH)) s

/-- CP L, reserved (R104). -/
def execCpL (s : State) : Host.Outcome State Fault Refusal :=
  raise (.unsupportedInstruction (.instr .cpL)) s

/-- CP A, reserved (R104). -/
def execCpA (s : State) : Host.Outcome State Fault Refusal :=
  raise (.unsupportedInstruction (.instr .cpA)) s

/-- INC B, reserved (R104). -/
def execIncB (s : State) : Host.Outcome State Fault Refusal :=
  raise (.unsupportedInstruction (.instr .incB)) s

/-- INC C, reserved (R104). -/
def execIncC (s : State) : Host.Outcome State Fault Refusal :=
  raise (.unsupportedInstruction (.instr .incC)) s

/-- INC D, reserved (R104). -/
def execIncD (s : State) : Host.Outcome State Fault Refusal :=
  raise (.unsupportedInstruction (.instr .incD)) s

/-- INC E, reserved (R104). -/
def execIncE (s : State) : Host.Outcome State Fault Refusal :=
  raise (.unsupportedInstruction (.instr .incE)) s

/-- INC H, reserved (R104). -/
def execIncH (s : State) : Host.Outcome State Fault Refusal :=
  raise (.unsupportedInstruction (.instr .incH)) s

/-- INC L, reserved (R104). -/
def execIncL (s : State) : Host.Outcome State Fault Refusal :=
  raise (.unsupportedInstruction (.instr .incL)) s

/-- INC A, reserved (R104). -/
def execIncA (s : State) : Host.Outcome State Fault Refusal :=
  raise (.unsupportedInstruction (.instr .incA)) s

/-- DEC B, reserved (R104). -/
def execDecB (s : State) : Host.Outcome State Fault Refusal :=
  raise (.unsupportedInstruction (.instr .decB)) s

/-- DEC C, reserved (R104). -/
def execDecC (s : State) : Host.Outcome State Fault Refusal :=
  raise (.unsupportedInstruction (.instr .decC)) s

/-- DEC D, reserved (R104). -/
def execDecD (s : State) : Host.Outcome State Fault Refusal :=
  raise (.unsupportedInstruction (.instr .decD)) s

/-- DEC E, reserved (R104). -/
def execDecE (s : State) : Host.Outcome State Fault Refusal :=
  raise (.unsupportedInstruction (.instr .decE)) s

/-- DEC H, reserved (R104). -/
def execDecH (s : State) : Host.Outcome State Fault Refusal :=
  raise (.unsupportedInstruction (.instr .decH)) s

/-- DEC L, reserved (R104). -/
def execDecL (s : State) : Host.Outcome State Fault Refusal :=
  raise (.unsupportedInstruction (.instr .decL)) s

/-- DEC A, reserved (R104). -/
def execDecA (s : State) : Host.Outcome State Fault Refusal :=
  raise (.unsupportedInstruction (.instr .decA)) s

end Sys2Proof.Machine
end

