-- ==== Sys2Proof/Machine/Sub.lean ====
section
/-! DEFINITION. The SUB family (41_alu8.md R124): one meaning per instruction, each over a shared operation of Machine/Ops.lean. -/

namespace Sys2Proof.Machine

/-- SUB B (R124). -/
def execSubB (s : State) : Host.Outcome State Fault Refusal :=
  subFromA .b s

/-- SUB C (R124). -/
def execSubC (s : State) : Host.Outcome State Fault Refusal :=
  subFromA .c s

/-- SUB D (R124). -/
def execSubD (s : State) : Host.Outcome State Fault Refusal :=
  subFromA .d s

/-- SUB E (R124). -/
def execSubE (s : State) : Host.Outcome State Fault Refusal :=
  subFromA .e s

/-- SUB H (R124). -/
def execSubH (s : State) : Host.Outcome State Fault Refusal :=
  subFromA .h s

/-- SUB L (R124). -/
def execSubL (s : State) : Host.Outcome State Fault Refusal :=
  subFromA .l s

/-- SUB A (R124). -/
def execSubA (s : State) : Host.Outcome State Fault Refusal :=
  subFromA .a s

end Sys2Proof.Machine
end

