-- ==== Sys2Proof/Machine/Dispatch.lean ====
section
/-! DEFINITION. Execute (40_dispatch.md R100, R102): one arm per instruction, no wildcard (30_encoding.md R71). -/

namespace Sys2Proof.Machine

def exec (i : Instr) (s : State) : Host.Outcome State Fault Refusal :=
  match i with
  | .addB => Sys2Proof.Machine.execAddB s
  | .addC => Sys2Proof.Machine.execAddC s
  | .addD => Sys2Proof.Machine.execAddD s
  | .addE => Sys2Proof.Machine.execAddE s
  | .addH => Sys2Proof.Machine.execAddH s
  | .addL => Sys2Proof.Machine.execAddL s
  | .addA => Sys2Proof.Machine.execAddA s
  | .adcB => Sys2Proof.Machine.execAdcB s
  | .adcC => Sys2Proof.Machine.execAdcC s
  | .adcD => Sys2Proof.Machine.execAdcD s
  | .adcE => Sys2Proof.Machine.execAdcE s
  | .adcH => Sys2Proof.Machine.execAdcH s
  | .adcL => Sys2Proof.Machine.execAdcL s
  | .adcA => Sys2Proof.Machine.execAdcA s
  | .subB => Sys2Proof.Machine.execSubB s
  | .subC => Sys2Proof.Machine.execSubC s
  | .subD => Sys2Proof.Machine.execSubD s
  | .subE => Sys2Proof.Machine.execSubE s
  | .subH => Sys2Proof.Machine.execSubH s
  | .subL => Sys2Proof.Machine.execSubL s
  | .subA => Sys2Proof.Machine.execSubA s
  | .addhlBc => Sys2Proof.Machine.execAddhlBc s
  | .addhlDe => Sys2Proof.Machine.execAddhlDe s
  | .addhlHl => Sys2Proof.Machine.execAddhlHl s
  | .addhlSp => Sys2Proof.Machine.execAddhlSp s
  | .sbcB => Sys2Proof.Machine.execSbcB s
  | .sbcC => Sys2Proof.Machine.execSbcC s
  | .sbcD => Sys2Proof.Machine.execSbcD s
  | .sbcE => Sys2Proof.Machine.execSbcE s
  | .sbcH => Sys2Proof.Machine.execSbcH s
  | .sbcL => Sys2Proof.Machine.execSbcL s
  | .sbcA => Sys2Proof.Machine.execSbcA s
  | .andB => Sys2Proof.Machine.execAndB s
  | .andC => Sys2Proof.Machine.execAndC s
  | .andD => Sys2Proof.Machine.execAndD s
  | .andE => Sys2Proof.Machine.execAndE s
  | .andH => Sys2Proof.Machine.execAndH s
  | .andL => Sys2Proof.Machine.execAndL s
  | .andA => Sys2Proof.Machine.execAndA s
  | .xorB => Sys2Proof.Machine.execXorB s
  | .xorC => Sys2Proof.Machine.execXorC s
  | .xorD => Sys2Proof.Machine.execXorD s
  | .xorE => Sys2Proof.Machine.execXorE s
  | .xorH => Sys2Proof.Machine.execXorH s
  | .xorL => Sys2Proof.Machine.execXorL s
  | .xorA => Sys2Proof.Machine.execXorA s
  | .orB => Sys2Proof.Machine.execOrB s
  | .orC => Sys2Proof.Machine.execOrC s
  | .orD => Sys2Proof.Machine.execOrD s
  | .orE => Sys2Proof.Machine.execOrE s
  | .orH => Sys2Proof.Machine.execOrH s
  | .orL => Sys2Proof.Machine.execOrL s
  | .orA => Sys2Proof.Machine.execOrA s
  | .cpB => Sys2Proof.Machine.execCpB s
  | .cpC => Sys2Proof.Machine.execCpC s
  | .cpD => Sys2Proof.Machine.execCpD s
  | .cpE => Sys2Proof.Machine.execCpE s
  | .cpH => Sys2Proof.Machine.execCpH s
  | .cpL => Sys2Proof.Machine.execCpL s
  | .cpA => Sys2Proof.Machine.execCpA s
  | .incB => Sys2Proof.Machine.execIncB s
  | .incC => Sys2Proof.Machine.execIncC s
  | .incD => Sys2Proof.Machine.execIncD s
  | .incE => Sys2Proof.Machine.execIncE s
  | .incH => Sys2Proof.Machine.execIncH s
  | .incL => Sys2Proof.Machine.execIncL s
  | .incA => Sys2Proof.Machine.execIncA s
  | .decB => Sys2Proof.Machine.execDecB s
  | .decC => Sys2Proof.Machine.execDecC s
  | .decD => Sys2Proof.Machine.execDecD s
  | .decE => Sys2Proof.Machine.execDecE s
  | .decH => Sys2Proof.Machine.execDecH s
  | .decL => Sys2Proof.Machine.execDecL s
  | .decA => Sys2Proof.Machine.execDecA s

end Sys2Proof.Machine
end

