-- ==== Sys2Proof/Machine/Transact.lean ====
section
/-! DEFINITION. One transaction of the CORE (00_scope.md R11), atomic and whole (20_memory.md R55, R56). -/

namespace Sys2Proof.Machine

/-- ExecuteWord (40_dispatch.md R101): decode, then Execute; an unassigned word is UnsupportedInstruction(w) (R83). -/
def executeWord (w : Byte) (s : State) : Host.Outcome State Fault Refusal :=
  match Sys2Proof.decode w with
  | .instr i => exec i s
  | .unassigned u => raise (.unsupportedInstruction (.word u)) s

/-- No transaction but Construct is defined on an instance that was never constructed (70_reset_and_hazards.md R193, K10;
DEDUCED, log entry 3, safe). -/
def whenConstructed (s : State) (o : Host.Outcome State Fault Refusal) : Host.Outcome State Fault Refusal :=
  if s.constructed then o else .fault .notConstructed

/-- One transaction. After an Execute the caller takes the status (R164). -/
def transact (t : Transaction) (s : State) : Host.Outcome State Fault Refusal :=
  match t with
  | .construct => .next s.construct
  | .execute i => whenConstructed s (handOver (exec i s))
  | .executeWord w => whenConstructed s (handOver (executeWord w s))
  | .host q => whenConstructed s (.next (hostAccess q s))
  | .wire q => whenConstructed s (wireAccess q s)

/-- The next transaction of the queue, in the caller's order (R56); with none queued the CORE waits, unchanged (R192;
DEDUCED, log entry 9, safe). -/
def runNext (s : State) : Host.Outcome State Fault Refusal :=
  match s.pending with
  | [] => .next s
  | t :: rest => transact t { s with pending := rest }

end Sys2Proof.Machine
end

