-- ==== Sys2Proof/Machine/Step.lean ====
section
/-! DEFINITION. One step of the machine: the caller's next transaction (00_scope.md R11, 20_memory.md R56). -/

namespace Sys2Proof.Machine

/-- One step. -/
def step (s : State) : Host.Outcome State Fault Refusal :=
  runNext s

/-- `s` with the table's word as the caller's next transaction, so that the next step decodes and runs it (log entry 1). -/
def State.withFetchWord (s : State) (nbits w : Nat) : State :=
  s.issueWord (Sys2Proof.tableWord nbits w)

end Sys2Proof.Machine
end

