-- ==== Sys2Proof/Safety.lean ====
section
/-! DEFINITION. The terms the statements use: the next state of an Execute written out, what a legal status and reply are
(60_exceptions.md R160), which registers a transaction may write (10_state.md R21, 40_dispatch.md R103), the invariant every
step keeps, and a run no error status was returned in. -/

namespace Sys2Proof.Safety

open Sys2Proof.Machine

/-! ## Next states of an Execute, written out -/

/-- `s` after an Execute that wrote A and the four flags and returned Ok, all else unchanged (R103). -/
def aluA (s : State) (v : Byte) (z n h c : Bool) : State :=
  { s with rf := { s.rf with a := v, flags := ⟨z, n, h, c⟩ }, reply := .status .ok }

/-- `s` after an Execute that wrote H, L and the four flags and returned Ok, all else unchanged (R103). -/
def aluHl (s : State) (hi lo : Byte) (z n h c : Bool) : State :=
  { s with rf := { s.rf with h := hi, l := lo, flags := ⟨z, n, h, c⟩ }, reply := .status .ok }

/-- `s` after an Execute that returned the status `st` and wrote nothing (R163). -/
def returned (s : State) (st : Status) : State :=
  { s with reply := .status st }

/-! ## Statuses and replies -/

/-- The variants R70 calls reserved. -/
def reservedVariant : Instruction → Bool
  | .add _ => false
  | .adc _ => false
  | .sub _ => false
  | .addhl _ => false
  | .sbc _ => true
  | .and _ => true
  | .or _ => true
  | .xor _ => true
  | .cp _ => true
  | .inc _ => true
  | .dec _ => true

/-- The status R160's table gives an instruction, with its info. -/
def statusOf (i : Instr) : Status :=
  if reservedVariant i.value then .unsupportedInstruction (.instr i)
  else if i.value = .addhl .sp then .ambiguousSemantics i
  else .ok

/-- The status R160's table gives a port word, with its info (R101). -/
def statusOfWord (w : Byte) : Status :=
  match decode w with
  | .instr i => statusOf i
  | .unassigned u => .unsupportedInstruction (.word u)

/-- The status is one R160's table lists, with the info it lists. -/
def legalStatus : Status → Bool
  | .ok => true
  | .unsupportedInstruction (.instr i) => reservedVariant i.value
  | .unsupportedInstruction (.word w) => !assignedWord w
  | .ambiguousSemantics i => i.value = .addhl .sp

/-- The reply is one the CORE can give: a legal status, and bits 3 to 0 of the flags byte and of AF read as zero (R24, R40). -/
def legalReply : Reply → Bool
  | .done => true
  | .status st => legalStatus st
  | .regValue _ => true
  | .pairValue p v => p != .af || v &&& 0x000F#16 == 0
  | .flagsByte b => b &&& 0x0F#8 == 0
  | .flagValue _ => true

/-! ## The invariant -/

/-- The instance exists, the last reply is one the CORE can give, and the caller's log holds only error statuses that R160
lists. -/
def CoreInvariant (s : State) : Prop :=
  s.constructed = true ∧ legalReply s.reply = true ∧ ∀ st ∈ s.log, legalStatus st = true ∧ st ≠ .ok

/-! ## What a transaction may write -/

/-- The destination registers of an instruction (R103); an error has none (R163). -/
def destinations : Instruction → List ArithmeticTarget
  | .add _ => [.a]
  | .adc _ => [.a]
  | .sub _ => [.a]
  | .addhl .bc => [.h, .l]
  | .addhl .de => [.h, .l]
  | .addhl .hl => [.h, .l]
  | .addhl .sp => []
  | .sbc _ => []
  | .and _ => []
  | .or _ => []
  | .xor _ => []
  | .cp _ => []
  | .inc _ => []
  | .dec _ => []

/-- The two registers of a pair; AF has one, its other half being the flags (R26). -/
def halves : Pair → List ArithmeticTarget
  | .bc => [.b, .c]
  | .de => [.d, .e]
  | .hl => [.h, .l]
  | .af => [.a]

/-- The registers a host access may write (R32, R34). -/
def hostWrites : HostAccess → List ArithmeticTarget
  | .readReg _ => []
  | .writeReg r _ => [r]
  | .getPair _ => []
  | .setPair p _ => halves p
  | .readFlags => []
  | .readFlag _ => []
  | .writeFlags _ => []

/-- Whether a host access may write the flags (R34, R37, C1). -/
def hostWritesFlags : HostAccess → Bool
  | .readReg _ => false
  | .writeReg _ _ => false
  | .getPair _ => false
  | .setPair p _ => p = .af
  | .readFlags => false
  | .readFlag _ => false
  | .writeFlags _ => true

/-- The instruction an Execute of either form runs, none for other transactions and for unassigned words. -/
def executed : Transaction → Option Instr
  | .construct => none
  | .execute i => some i
  | .executeWord w =>
    match decode w with
    | .instr i => some i
    | .unassigned _ => none
  | .host _ => none
  | .wire _ => none

/-- The host access a transaction of either form makes. -/
def accessed : Transaction → Option HostAccess
  | .construct => none
  | .execute _ => none
  | .executeWord _ => none
  | .host q => some q
  | .wire q => q.access

/-- The registers a transaction may write (R21's table, R190). -/
def mayWrite (tr : Transaction) : List ArithmeticTarget :=
  if tr = .construct then [.a, .b, .c, .d, .e, .h, .l]
  else (((executed tr).map fun i => destinations i.value).getD [])
    ++ ((accessed tr).map hostWrites).getD []

/-- Whether a transaction may write the flags: the implemented instructions, two host writes, Construct (R40, C1). -/
def mayWriteFlags (tr : Transaction) : Bool :=
  tr = .construct
    || ((executed tr).map fun i => statusOf i == .ok).getD false
    || ((accessed tr).map hostWritesFlags).getD false

/-- The status an Execute of either form returns, none for other transactions. -/
def statusOfTransaction : Transaction → Option Status
  | .construct => none
  | .execute i => some (statusOf i)
  | .executeWord w => some (statusOfWord w)
  | .host _ => none
  | .wire _ => none

/-! ## Runs without an error -/

/-- The reply reports an error. -/
def errorReply : Reply → Bool
  | .status st => st != .ok
  | .done => false
  | .regValue _ => false
  | .pairValue _ _ => false
  | .flagsByte _ => false
  | .flagValue _ => false

/-- `k` steps that all answer a next state with no error status: the runs D19 does not treat as faulted. -/
def CleanRun : Nat → State → Prop
  | 0, _ => True
  | k + 1, s => ∃ t, step s = .next t ∧ errorReply t.reply = false ∧ CleanRun k t

/-- The transaction returns no error status and names no absent register, so that no reaction of the caller's matters. -/
def cleanTransaction : Transaction → Bool
  | .construct => true
  | .execute i => statusOf i == .ok
  | .executeWord w => statusOfWord w == .ok
  | .host _ => true
  | .wire q => q.access.isSome

end Sys2Proof.Safety
end

