-- ==== Sys2Proof/Certificates/Slice0/Obligations.lean ====
section
/-! DEFINITION. The statements for the provers. Each docstring names the rule of spec/ it formalises; what is the model's own
(log entries 1 to 5) is said there. -/

open Sys2Proof Sys2Proof.Machine Sys2Proof.Safety

/-! ## Reset -/

/-- R44: after Construct every register and flag is zero, so pack(F) and every pair are zero too; State.reset, which stands
for Construct, holds the same Register File. -/
def Obligations.ResetRegistersAreZero : Prop :=
  ∀ rf : RegisterFile, (rf = State.reset.rf ∨ ∃ s : State, rf = s.construct.rf) →
    rf.a = 0x00#8 ∧ rf.b = 0x00#8 ∧ rf.c = 0x00#8 ∧ rf.d = 0x00#8 ∧ rf.e = 0x00#8 ∧ rf.h = 0x00#8 ∧ rf.l = 0x00#8 ∧
    rf.flags.z = false ∧ rf.flags.n = false ∧ rf.flags.h = false ∧ rf.flags.c = false ∧
    rf.flags.pack = 0x00#8 ∧
    rf.pair .bc = 0x0000#16 ∧ rf.pair .de = 0x0000#16 ∧ rf.pair .hl = 0x0000#16 ∧ rf.pair .af = 0x0000#16

/-- 70_reset_and_hazards.md section 1 (R190 for the Register File): Construct sets every register and flag to zero whatever the
state was, constructed or not. What it does to the rest is the model's: the instance then exists (log entry 3), nothing is
returned (log entry 4), and the caller's queue, policy and log are kept (log entries 1, 2 and 14). -/
def Obligations.ConstructIgnoresEarlierState : Prop :=
  ∀ (s : State) (rest : List Transaction), ∃ t : State,
    step { s with pending := .construct :: rest } = .next t ∧
    t.rf = { a := 0, b := 0, c := 0, d := 0, e := 0, h := 0, l := 0, flags := ⟨false, false, false, false⟩ } ∧
    t.constructed = true ∧ t.reply = .done ∧ t.pending = rest ∧ t.onFault = s.onFault ∧ t.log = s.log

/-- 70_reset_and_hazards.md section 1: no instruction resets the CORE. An Execute that ends with every register and flag zero
began with them so, and returned an error: an implemented instruction with a zero result sets Z. -/
def Obligations.NoInstructionZeroesTheCore : Prop :=
  ∀ (i : Instr) (s t : State), exec i s = .next t → t.rf = RegisterFile.zero →
    s.rf = RegisterFile.zero ∧ t.reply ≠ .status .ok

/-! ## The ALU primitives -/

/-- R120: add8's result and four flags for all operands and both carry-in choices; half-carry and carry take all four
combinations. -/
def Obligations.Add8ResultAndFlags : Prop :=
  (∀ (f : Flags) (x y : Byte) (useCarry : Bool),
    let cin := if useCarry ∧ f.c then 1 else 0
    let sum := x.toNat + y.toNat + cin
    let r := add8 f x y useCarry
    r.value.toNat = sum % 256 ∧
    (r.flags.z = true ↔ sum % 256 = 0) ∧
    r.flags.n = false ∧
    (r.flags.h = true ↔ x.toNat % 16 + y.toNat % 16 + cin > 0xF) ∧
    (r.flags.c = true ↔ sum > 255)) ∧
  (∀ half carry : Bool, ∃ (f : Flags) (x y : Byte) (useCarry : Bool),
    (add8 f x y useCarry).flags.h = half ∧ (add8 f x y useCarry).flags.c = carry)

/-- R121: sub8's result and four flags for all operands; the half-carry is the borrow from bit 4 (the spec's decision D8). -/
def Obligations.Sub8ResultAndFlags : Prop :=
  ∀ x y : Byte,
    (sub8 x y).value = x - y ∧
    ((sub8 x y).flags.z = true ↔ x = y) ∧
    (sub8 x y).flags.n = true ∧
    ((sub8 x y).flags.h = true ↔ y.toNat % 16 > x.toNat % 16) ∧
    ((sub8 x y).flags.c = true ↔ y.toNat > x.toNat)

/-- R125: the laws of the 8-bit family: results wrap modulo 256, overflow and borrow go to carry, and Z is set iff the
truncated result is zero, for every operation (add8, add16, sub8). -/
def Obligations.EightBitFamilyLaws : Prop :=
  (∀ (f : Flags) (x y : Byte),
    (add8 f x y true).value.toNat = (x.toNat + y.toNat + bit f.c) % 256 ∧
    ((add8 f x y true).flags.c = true ↔ x.toNat + y.toNat + bit f.c > 255) ∧
    ((add8 f x y true).flags.h = true ↔ x.toNat % 16 + y.toNat % 16 + bit f.c > 0xF) ∧
    (add8 f x y false).value.toNat = (x.toNat + y.toNat) % 256 ∧
    ((add8 f x y false).flags.c = true ↔ x.toNat + y.toNat > 255) ∧
    ((add8 f x y false).flags.h = true ↔ x.toNat % 16 + y.toNat % 16 > 0xF)) ∧
  (∀ x y : Byte,
    (sub8 x y).value.toNat = (256 + x.toNat - y.toNat) % 256 ∧ ((sub8 x y).flags.c = true ↔ y.toNat > x.toNat)) ∧
  (∀ (f : Flags) (x y : Byte) (u : Bool), (add8 f x y u).flags.z = true ↔ (add8 f x y u).value = 0) ∧
  (∀ x y : Byte, (sub8 x y).flags.z = true ↔ (sub8 x y).value = 0) ∧
  (∀ x y : Word, (add16 x y).flags.z = true ↔ (add16 x y).value = 0)

/-- R140: add16's result and four flags for all operands; the half-carry compares the low BYTE sum with 0xF (D9), is true for
every low-byte sum of 16 or more, and depends on no higher bit. -/
def Obligations.Add16ResultAndFlags : Prop :=
  (∀ x y : Word,
    (add16 x y).value.toNat = (x.toNat + y.toNat) % 65536 ∧
    ((add16 x y).flags.z = true ↔ (x.toNat + y.toNat) % 65536 = 0) ∧
    (add16 x y).flags.n = false ∧
    ((add16 x y).flags.h = true ↔ x.toNat % 256 + y.toNat % 256 > 0xF) ∧
    ((add16 x y).flags.c = true ↔ x.toNat + y.toNat > 65535)) ∧
  (∀ (hi hi' hj hj' lo lo' : Byte),
    (add16 (joinBytes hi lo) (joinBytes hj lo')).flags.h = (add16 (joinBytes hi' lo) (joinBytes hj' lo')).flags.h) ∧
  (add16 0x0010#16 0x0000#16).flags.h = true

/-- R142: the 16-bit add wraps, reports overflow in carry, and on the source's scenario 5 gives half-carry false where a test
on bit 11 would give true. -/
def Obligations.Add16Scenario5 : Prop :=
  (∀ x y : Word,
    (add16 x y).value = x + y ∧ ((add16 x y).flags.c = true ↔ x.toNat + y.toNat > 65535) ∧
    ((add16 x y).flags.z = true ↔ (add16 x y).value = 0)) ∧
  (add16 65280#16 65280#16).value = 65024#16 ∧
  (add16 65280#16 65280#16).flags.c = true ∧
  (add16 65280#16 65280#16).flags.h = false ∧
  65280 % 4096 + 65280 % 4096 > 0xFFF

/-! ## Instructions: results, flags, statuses and frames -/

/-- 40_dispatch.md section 1 (R102's dispatch), for every value of the union (all 74 instructions): the primitive on the
operands as they were, the destination and the flags written, the status returned, nothing else changed. The clauses for ADDHL
SP and the reserved variants rest on the spec's decisions D6, D7 and D10 (log entry 16) and on log entry 5: an error is a next
state with nothing but the status written. -/
def Obligations.ExecuteIsTheDispatch : Prop :=
  ∀ s : State,
    (∀ t : ArithmeticTarget,
      let add := add8 s.rf.flags s.rf.a (s.rf.reg8 t) false
      let adc := add8 s.rf.flags s.rf.a (s.rf.reg8 t) true
      let sub := sub8 s.rf.a (s.rf.reg8 t)
      exec (Instruction.add t).toInstr s = .next (aluA s add.value add.flags.z add.flags.n add.flags.h add.flags.c) ∧
      exec (Instruction.adc t).toInstr s = .next (aluA s adc.value adc.flags.z adc.flags.n adc.flags.h adc.flags.c) ∧
      exec (Instruction.sub t).toInstr s = .next (aluA s sub.value sub.flags.z sub.flags.n sub.flags.h sub.flags.c)) ∧
    (∀ pq ∈ [(AddHlTarget.bc, Pair.bc), (.de, .de), (.hl, .hl)],
      let r := add16 (s.rf.pair .hl) (s.rf.pair pq.2)
      exec (Instruction.addhl pq.1).toInstr s =
        .next (aluHl s (highHalf r.value) (lowHalf r.value) r.flags.z r.flags.n r.flags.h r.flags.c)) ∧
    exec (Instruction.addhl .sp).toInstr s =
      .next (returned s (.ambiguousSemantics (Instruction.addhl .sp).toInstr)) ∧
    (∀ (t : ArithmeticTarget), ∀ v ∈ [Instruction.sbc t, .and t, .or t, .xor t, .cp t, .inc t, .dec t],
      exec v.toInstr s = .next (returned s (.unsupportedInstruction (.instr v.toInstr))))

/-- R122: ADD t for every register t (addA, addB, addC, addD, addE, addH, addL): its word, result, flags, status and frame;
with t = A the result is 2A, H = A[3] and C = A[7]; zero exactly for sums 0 and 256; the incoming carry is ignored. -/
def Obligations.AddRegisterToA : Prop :=
  (∀ (t : ArithmeticTarget) (s : State),
    let v := s.rf.reg8 t
    let sum := s.rf.a.toNat + v.toNat
    exec (Instruction.add t).toInstr s =
      .next (aluA s (BitVec.ofNat 8 sum) (decide (sum = 0 ∨ sum = 256)) false
        (decide (s.rf.a.toNat % 16 + v.toNat % 16 > 0xF)) (decide (sum > 255)))) ∧
  (∀ s : State, exec .addA s =
    .next (aluA s (BitVec.ofNat 8 (2 * s.rf.a.toNat)) (decide (2 * s.rf.a.toNat % 256 = 0)) false
      (s.rf.a.getLsbD 3) (s.rf.a.getLsbD 7))) ∧
  (∀ (t : ArithmeticTarget) (s : State) (carry : Bool), ∃ rf : RegisterFile,
    exec (Instruction.add t).toInstr s = .next { s with rf := rf, reply := .status .ok } ∧
    exec (Instruction.add t).toInstr { s with rf := { s.rf with flags := { s.rf.flags with c := carry } } } =
      .next { s with rf := rf, reply := .status .ok }) ∧
  ([Instr.addB, .addC, .addD, .addE, .addH, .addL, .addA].map encode =
    [0x80#8, 0x81#8, 0x82#8, 0x83#8, 0x84#8, 0x85#8, 0x87#8]) ∧
  (∀ s : State, s.rf.a = 0x0F#8 → s.rf.b = 0x01#8 →
    exec .addB s = .next (aluA s 0x10#8 false false true false))

/-- R123: ADC t for every register t (adcA, adcB, adcC, adcD, adcE, adcH, adcL), with the carry as it was before: its word,
result, flags, status and frame; the rule's corner cases; ADC with carry clear is ADD. -/
def Obligations.AddWithCarryToA : Prop :=
  (∀ (t : ArithmeticTarget) (s : State),
    let v := s.rf.reg8 t
    let cin := if s.rf.flags.c then 1 else 0
    let sum := s.rf.a.toNat + v.toNat + cin
    exec (Instruction.adc t).toInstr s =
      .next (aluA s (BitVec.ofNat 8 sum) (decide (sum % 256 = 0)) false
        (decide (s.rf.a.toNat % 16 + v.toNat % 16 + cin > 0xF)) (decide (sum > 255)))) ∧
  (∀ s : State,
    let cin := if s.rf.flags.c then 1 else 0
    exec .adcA s =
      .next (aluA s (BitVec.ofNat 8 (2 * s.rf.a.toNat + cin)) (decide ((2 * s.rf.a.toNat + cin) % 256 = 0)) false
        (s.rf.a.getLsbD 3) (s.rf.a.getLsbD 7))) ∧
  (∀ (t : ArithmeticTarget) (s u : State), s.rf.flags.c = true → s.rf.reg8 t = 0xFF#8 →
    exec (Instruction.adc t).toInstr s = .next u →
    u.rf.flags.c = true ∧ (s.rf.a = 0x00#8 → u.rf.a = 0x00#8 ∧ u.rf.flags.z = true ∧ u.rf.flags.h = true)) ∧
  (∀ (t : ArithmeticTarget) (s : State), s.rf.flags.c = false →
    exec (Instruction.adc t).toInstr s = exec (Instruction.add t).toInstr s) ∧
  ([Instr.adcB, .adcC, .adcD, .adcE, .adcH, .adcL, .adcA].map encode =
    [0x88#8, 0x89#8, 0x8A#8, 0x8B#8, 0x8C#8, 0x8D#8, 0x8F#8]) ∧
  (∀ s : State, s.rf.a = 0xF0#8 → s.rf.c = 0x11#8 → s.rf.flags.c = true →
    exec .adcC s = .next (aluA s 0x02#8 false false false true))

/-- R124: SUB t for every register t (subA, subB, subC, subD, subE, subH, subL): its word, result, flags (H by the spec's
decision D8), status and frame; SUB A clears A; Z exactly when the operand equals A; the incoming carry is ignored. -/
def Obligations.SubtractRegisterFromA : Prop :=
  (∀ (t : ArithmeticTarget) (s : State),
    let v := s.rf.reg8 t
    exec (Instruction.sub t).toInstr s =
      .next (aluA s (if v.toNat > s.rf.a.toNat then BitVec.ofNat 8 (s.rf.a.toNat + 256 - v.toNat)
          else BitVec.ofNat 8 (s.rf.a.toNat - v.toNat))
        (decide (v = s.rf.a)) true (decide (v.toNat % 16 > s.rf.a.toNat % 16)) (decide (v.toNat > s.rf.a.toNat)))) ∧
  (∀ s : State, exec .subA s = .next (aluA s 0x00#8 true true false false)) ∧
  (∀ (t : ArithmeticTarget) (s : State) (carry : Bool), ∃ rf : RegisterFile,
    exec (Instruction.sub t).toInstr s = .next { s with rf := rf, reply := .status .ok } ∧
    exec (Instruction.sub t).toInstr { s with rf := { s.rf with flags := { s.rf.flags with c := carry } } } =
      .next { s with rf := rf, reply := .status .ok }) ∧
  ([Instr.subB, .subC, .subD, .subE, .subH, .subL, .subA].map encode =
    [0x90#8, 0x91#8, 0x92#8, 0x93#8, 0x94#8, 0x95#8, 0x97#8]) ∧
  (∀ s : State, s.rf.a = 0x00#8 → s.rf.b = 0x01#8 →
    exec .subB s = .next (aluA s 0xFF#8 false true true true)) ∧
  (∀ s : State, s.rf.a = 0x01#8 → s.rf.d = 0x01#8 →
    exec .subD s = .next (aluA s 0x00#8 true true false false))

/-- R141: ADDHL BC, DE and HL (addhlBc, addhlDe, addhlHl): word, result in H and L, flags, status and frame; with p = HL the
result is 2HL, C = HL[15] and H iff L is 8 or more. -/
def Obligations.AddPairToHl : Prop :=
  (∀ (s : State), ∀ row ∈ [(Instr.addhlBc, s.rf.b, s.rf.c), (Instr.addhlDe, s.rf.d, s.rf.e), (Instr.addhlHl, s.rf.h, s.rf.l)],
    let hl := 256 * s.rf.h.toNat + s.rf.l.toNat
    let v := 256 * row.2.1.toNat + row.2.2.toNat
    exec row.1 s =
      .next (aluHl s (BitVec.ofNat 8 ((hl + v) % 65536 / 256)) (BitVec.ofNat 8 ((hl + v) % 256))
        (decide ((hl + v) % 65536 = 0)) false
        (decide (s.rf.l.toNat + row.2.2.toNat > 0xF)) (decide (hl + v > 65535)))) ∧
  (∀ (s : State),
    let hl := 256 * s.rf.h.toNat + s.rf.l.toNat
    exec .addhlHl s =
      .next (aluHl s (BitVec.ofNat 8 (2 * hl % 65536 / 256)) (BitVec.ofNat 8 (2 * hl % 256))
        (decide (2 * hl % 65536 = 0)) false (decide (s.rf.l.toNat ≥ 8)) (s.rf.h.getLsbD 7))) ∧
  ([Instr.addhlBc, .addhlDe, .addhlHl].map encode = [0x09#8, 0x19#8, 0x29#8]) ∧
  (∀ s : State, s.rf.pair .hl = 0xFFFF#16 → s.rf.pair .bc = 0x0001#16 →
    exec .addhlBc s = .next (aluHl s 0x00#8 0x00#8 true false true true))

/-- R144: ADDHL SP (addhlSp, word 0x39) returns AmbiguousSemantics with itself as info in every state, and writes nothing. -/
def Obligations.AddHlSpIsAmbiguous : Prop :=
  (∀ s : State, exec .addhlSp s = .next { s with reply := .status (.ambiguousSemantics .addhlSp) }) ∧
  decode 0x39#8 = .instr .addhlSp ∧ encode .addhlSp = 0x39#8

/-- R104: SBC, AND, OR, XOR, CP, INC and DEC of every register (all 49 reserved constructors) return UnsupportedInstruction
with themselves as info in every state, and write nothing. -/
def Obligations.ReservedVariantsAreUnsupported : Prop :=
  ∀ (s : State) (t : ArithmeticTarget),
    ∀ v ∈ [Instruction.sbc t, .and t, .or t, .xor t, .cp t, .inc t, .dec t],
      exec v.toInstr s = .next { s with reply := .status (.unsupportedInstruction (.instr v.toInstr)) }

/-- 40_dispatch.md section 1 (the destinations): A for ADD, ADC and SUB and the pair HL for ADDHL; nothing else in the Register
File changes. All four flags are written: for every instruction but ADC the next state is the same whatever all four flags were;
for ADC it depends on the old C alone, the new C is the carry of the sum with it, and so are Z, N and H the sum's. That the
caller's fields are kept is the model's (log entries 1 to 3). -/
def Obligations.DestinationAndFlagsFrame : Prop :=
  (∀ (i : Instr) (s t : State), exec i s = .next t → t.reply = .status .ok →
    t.rf.b = s.rf.b ∧ t.rf.c = s.rf.c ∧ t.rf.d = s.rf.d ∧ t.rf.e = s.rf.e ∧
    ((∃ p, i.value = .addhl p) → t.rf.a = s.rf.a) ∧
    ((∀ p, i.value ≠ .addhl p) → t.rf.h = s.rf.h ∧ t.rf.l = s.rf.l) ∧
    t.constructed = s.constructed ∧ t.pending = s.pending ∧ t.onFault = s.onFault ∧ t.log = s.log) ∧
  (∀ (i : Instr) (s t : State) (old : Flags), exec i s = .next t → t.reply = .status .ok →
    (∀ r, i.value ≠ .adc r) →
    exec i { s with rf := { s.rf with flags := old } } = .next t) ∧
  (∀ (r : ArithmeticTarget) (s : State) (z n h : Bool), ∃ t : State,
    exec (Instruction.adc r).toInstr s = .next t ∧
    exec (Instruction.adc r).toInstr { s with rf := { s.rf with flags := ⟨z, n, h, s.rf.flags.c⟩ } } = .next t ∧
    (t.rf.flags.z = true ↔ t.rf.a = 0) ∧ t.rf.flags.n = false ∧
    (t.rf.flags.h = true ↔ s.rf.a.toNat % 16 + (s.rf.reg8 r).toNat % 16 + s.rf.flags.c.toNat > 0xF) ∧
    (t.rf.flags.c = true ↔ s.rf.a.toNat + (s.rf.reg8 r).toNat + s.rf.flags.c.toNat > 255))

/-- R105: an instruction whose source is its own destination uses the old value for both operands, and ADC the old carry. -/
def Obligations.SourceIsReadBeforeWriting : Prop :=
  ∀ s : State, ∃ t u v w : State,
    exec .addA s = .next t ∧ t.rf.a = s.rf.a + s.rf.a ∧
    exec .adcA s = .next u ∧ u.rf.a = s.rf.a + s.rf.a + (if s.rf.flags.c then 1#8 else 0#8) ∧
    exec .subA s = .next v ∧ v.rf.a = s.rf.a - s.rf.a ∧
    exec .addhlHl s = .next w ∧ w.rf.pair .hl = s.rf.pair .hl + s.rf.pair .hl

/-- 40_dispatch.md section 1 (no state kept between transactions): an Execute answers a next state whatever the caller's
fields are, and its status and new Register File depend on the instruction and the old Register File alone. -/
def Obligations.ExecuteSeesOnlyTheRegisterFile : Prop :=
  ∀ (i : Instr) (s s' : State), s.rf = s'.rf →
    ∃ (rf : RegisterFile) (st : Status),
      exec i s = .next { s with rf := rf, reply := .status st } ∧
      exec i s' = .next { s' with rf := rf, reply := .status st }

/-- 70_reset_and_hazards.md section 3: back to back, ADC sees the carry the ADD before it wrote, so the two together add
a carry chain: the ADC's result is the 8-bit sum plus the carry out of the ADD. -/
def Obligations.CarryChainsFromAddToAdc : Prop :=
  ∀ (r q : ArithmeticTarget) (s : State), ∃ t u : State,
    exec (Instruction.add r).toInstr s = .next t ∧
    exec (Instruction.adc q).toInstr t = .next u ∧
    u.rf.a.toNat =
      (t.rf.a.toNat + (t.rf.reg8 q).toNat + (s.rf.a.toNat + (s.rf.reg8 r).toNat) / 256) % 256

/-! ## Statuses and errors -/

/-- R160: every Execute answers one of three statuses with the info and code of the rule's table, for every instruction and
every port word; code 3 is never returned. -/
def Obligations.StatusTable : Prop :=
  (∀ (i : Instr) (s : State), ∃ t : State, exec i s = .next t ∧ t.reply = .status (statusOf i)) ∧
  (∀ (w : Byte) (s : State), ∃ t : State, executeWord w s = .next t ∧ t.reply = .status (statusOfWord w)) ∧
  (∀ t : ArithmeticTarget,
    statusOf (Instruction.add t).toInstr = .ok ∧ statusOf (Instruction.adc t).toInstr = .ok ∧
    statusOf (Instruction.sub t).toInstr = .ok) ∧
  statusOf .addhlBc = .ok ∧ statusOf .addhlDe = .ok ∧ statusOf .addhlHl = .ok ∧
  (∀ t : ArithmeticTarget, ∀ v ∈ [Instruction.sbc t, .and t, .or t, .xor t, .cp t, .inc t, .dec t],
    statusOf v.toInstr = .unsupportedInstruction (.instr v.toInstr)) ∧
  (∀ w : Byte, assignedWord w = false → statusOfWord w = .unsupportedInstruction (.word w)) ∧
  statusOf .addhlSp = .ambiguousSemantics .addhlSp ∧ statusOfWord 0x39#8 = .ambiguousSemantics .addhlSp ∧
  Status.ok.code = 0#2 ∧
  (∀ info, (Status.unsupportedInstruction info).code = 1#2) ∧
  (∀ i, (Status.ambiguousSemantics i).code = 2#2) ∧
  (∀ st : Status, st.code ≠ 3#2)

/-- R163: an Execute that returns an error writes no register and no flag; nothing but the returned status differs. -/
def Obligations.ErrorWritesNothing : Prop :=
  (∀ (i : Instr) (s t : State), exec i s = .next t → t.reply ≠ .status .ok → t = { s with reply := t.reply }) ∧
  (∀ (w : Byte) (s t : State), executeWord w s = .next t → t.reply ≠ .status .ok → t = { s with reply := t.reply })

/-- 60_exceptions.md section 1 (errors are not transient): an instruction or word that returned an error returns the same
error in every state. -/
def Obligations.SameErrorInEveryState : Prop :=
  (∀ (i : Instr) (s t : State) (st : Status), exec i s = .next t → t.reply = .status st → st ≠ .ok →
    ∀ s' : State, exec i s' = .next (returned s' st)) ∧
  (∀ (w : Byte) (s t : State) (st : Status), executeWord w s = .next t → t.reply = .status st → st ≠ .ok →
    ∀ s' : State, executeWord w s' = .next (returned s' st))

/-- R83: each of the 182 unassigned words returns UnsupportedInstruction with the word as info, and writes nothing; the
memory forms and the prefix are among them. -/
def Obligations.UnassignedWordsAreUnsupported : Prop :=
  (∀ (w : Byte) (s : State), assignedWord w = false →
    executeWord w s = .next { s with reply := .status (.unsupportedInstruction (.word w)) }) ∧
  ((List.range 256).countP fun n => !assignedWord (BitVec.ofNat 8 n)) = 182 ∧
  (∀ w ∈ [0x86#8, 0x8E#8, 0x96#8, 0x9E#8, 0xA6#8, 0xAE#8, 0xB6#8, 0xBE#8, 0x34#8, 0x35#8, 0xCB#8, 0x00#8],
    assignedWord w = false)

/-- 60_exceptions.md section 1 (the caller decides; R164's onFault is D19's OPEN parameter): on Ok the caller goes on; on an
error it stops with the fault named after the status, appends the status to its log, or goes on, as its policy says for that
status. -/
def Obligations.CallerReactsAsItsPolicySays : Prop :=
  (∀ s : State, s.reply = .status .ok → handOver (.next s) = .next s) ∧
  (∀ (s : State) (st : Status), s.reply = .status st → st ≠ .ok →
    (s.onFault.reaction st = .skip → handOver (.next s) = .next s) ∧
    (s.onFault.reaction st = .logAndContinue → handOver (.next s) = .next { s with log := s.log ++ [st] }) ∧
    (s.onFault.reaction st = .halt → ∀ info, st = .unsupportedInstruction info →
      handOver (.next s) = .fault (.unsupportedInstruction info)) ∧
    (s.onFault.reaction st = .halt → ∀ i, st = .ambiguousSemantics i →
      handOver (.next s) = .fault (.ambiguousSemantics i))) ∧
  (∀ (react : Status → OnFault) (listed : List Status) (other : OnFault),
    let policy : FaultPolicy := { special := listed.map fun st => (st, react st), otherwise := other }
    (∀ st ∈ listed, policy.reaction st = react st) ∧ (∀ st, st ∉ listed → policy.reaction st = other))

/-- 60_exceptions.md section 1 (no fault state): after an erring Execute that the caller does not halt on, the Register File
is as it was, the instance accepts the next transaction, and that transaction gives the Register File it would have given. -/
def Obligations.CoreGoesOnAfterAnError : Prop :=
  ∀ (i j : Instr) (s : State) (rest : List Transaction), s.constructed = true → statusOf i ≠ .ok →
    s.onFault.reaction (statusOf i) ≠ .halt →
    ∃ t u v : State,
      step { s with pending := .execute i :: .execute j :: rest } = .next t ∧
      t.rf = s.rf ∧ t.constructed = true ∧ t.pending = .execute j :: rest ∧
      exec j t = .next u ∧ exec j s = .next v ∧ u.rf = v.rf ∧ u.reply = v.reply

/-! ## Encoding -/

/-- 30_encoding.md sections 2 and 3: decoding gives an instruction exactly on that instruction's own word, in both
directions, so no bit of a word is dropped and no two instructions share one. -/
def Obligations.DecodeAndEncodeAgree : Prop :=
  (∀ (i : Instr) (w : Byte), decode w = .instr i ↔ encode i = w) ∧
  (∀ v : Instruction, decode v.encode = .instr v.toInstr ∧ v.toInstr.value = v)

/-- R82: 74 of the 256 words decode to an instruction, 25 of them to ADD, ADC, SUB or ADDHL and 49 to a reserved variant, and
182 are unassigned; they are the words R80 and R81 list, and decode is the rule's pseudocode on the fields. -/
def Obligations.DecodeIsTotalAndCounts : Prop :=
  (∀ w : Byte, (∃ i, decode w = .instr i) ↔ assignedWord w = true) ∧
  (∀ w : Byte, assignedWord w = false → decode w = .unassigned w) ∧
  ((List.range 256).countP fun n => (decodeTableWord 8 n).isSome) = 74 ∧
  ((List.range 256).countP fun n => (decodeTableWord 8 n).any fun i => !reservedVariant i.value) = 25 ∧
  ((List.range 256).countP fun n => (decodeTableWord 8 n).any fun i => reservedVariant i.value) = 49 ∧
  (∀ (op : BitVec 3) (t : ArithmeticTarget),
    decode (0b10#2 ++ op ++ t.code : BitVec 8) = .instr (variantOf op t).toInstr) ∧
  (∀ op : BitVec 3, decode (0b10#2 ++ op ++ 0b110#3 : BitVec 8) = .unassigned (0b10#2 ++ op ++ 0b110#3 : BitVec 8)) ∧
  (∀ p : AddHlTarget, decode (0b00#2 ++ p.code ++ 0b1001#4 : BitVec 8) = .instr (Instruction.addhl p).toInstr) ∧
  (∀ t : ArithmeticTarget,
    decode (0b00#2 ++ t.code ++ 0b100#3 : BitVec 8) = .instr (Instruction.inc t).toInstr ∧
    decode (0b00#2 ++ t.code ++ 0b101#3 : BitVec 8) = .instr (Instruction.dec t).toInstr)

/-- R80: the 25 words of the implemented variants and ADDHL SP, each with its instruction. -/
def Obligations.ImplementedWordsDecode : Prop :=
  [0x80, 0x81, 0x82, 0x83, 0x84, 0x85, 0x87].map (decodeTableWord 8) =
    [some .addB, some .addC, some .addD, some .addE, some .addH, some .addL, some .addA] ∧
  [0x88, 0x89, 0x8A, 0x8B, 0x8C, 0x8D, 0x8F].map (decodeTableWord 8) =
    [some .adcB, some .adcC, some .adcD, some .adcE, some .adcH, some .adcL, some .adcA] ∧
  [0x90, 0x91, 0x92, 0x93, 0x94, 0x95, 0x97].map (decodeTableWord 8) =
    [some .subB, some .subC, some .subD, some .subE, some .subH, some .subL, some .subA] ∧
  [0x09, 0x19, 0x29, 0x39].map (decodeTableWord 8) = [some .addhlBc, some .addhlDe, some .addhlHl, some .addhlSp]

/-- R81: the 49 words of the reserved variants, each with its instruction, and the excluded words. -/
def Obligations.ReservedWordsDecode : Prop :=
  [0x98, 0x99, 0x9A, 0x9B, 0x9C, 0x9D, 0x9E, 0x9F].map (decodeTableWord 8) =
    [some .sbcB, some .sbcC, some .sbcD, some .sbcE, some .sbcH, some .sbcL, none, some .sbcA] ∧
  [0xA0, 0xA1, 0xA2, 0xA3, 0xA4, 0xA5, 0xA6, 0xA7].map (decodeTableWord 8) =
    [some .andB, some .andC, some .andD, some .andE, some .andH, some .andL, none, some .andA] ∧
  [0xA8, 0xA9, 0xAA, 0xAB, 0xAC, 0xAD, 0xAE, 0xAF].map (decodeTableWord 8) =
    [some .xorB, some .xorC, some .xorD, some .xorE, some .xorH, some .xorL, none, some .xorA] ∧
  [0xB0, 0xB1, 0xB2, 0xB3, 0xB4, 0xB5, 0xB6, 0xB7].map (decodeTableWord 8) =
    [some .orB, some .orC, some .orD, some .orE, some .orH, some .orL, none, some .orA] ∧
  [0xB8, 0xB9, 0xBA, 0xBB, 0xBC, 0xBD, 0xBE, 0xBF].map (decodeTableWord 8) =
    [some .cpB, some .cpC, some .cpD, some .cpE, some .cpH, some .cpL, none, some .cpA] ∧
  [0x04, 0x0C, 0x14, 0x1C, 0x24, 0x2C, 0x34, 0x3C].map (decodeTableWord 8) =
    [some .incB, some .incC, some .incD, some .incE, some .incH, some .incL, none, some .incA] ∧
  [0x05, 0x0D, 0x15, 0x1D, 0x25, 0x2D, 0x35, 0x3D].map (decodeTableWord 8) =
    [some .decB, some .decC, some .decD, some .decE, some .decH, some .decL, none, some .decA]

/-- R84: every word is decoded alone; 0xCB returns UnsupportedInstruction and the word after it is the next transaction,
untouched. -/
def Obligations.PrefixWordConsumesNothing : Prop :=
  (∀ (w : Byte) (ws : List Byte), decodeStream (w :: ws) = decode w :: decodeStream ws) ∧
  (∀ (s : State) (w : Byte) (rest : List Transaction), s.constructed = true →
    s.onFault.reaction (.unsupportedInstruction (.word 0xCB#8)) ≠ .halt →
    ∃ t : State, step { s with pending := .executeWord 0xCB#8 :: .executeWord w :: rest } = .next t ∧
      t.reply = .status (.unsupportedInstruction (.word 0xCB#8)) ∧ t.rf = s.rf ∧
      t.pending = .executeWord w :: rest)

/-! ## The flags byte and the pairs -/

/-- R24: pack(F) has Z, N, H, C in bits 7, 6, 5, 4 and zero in bits 3 to 0. -/
def Obligations.PackLayout : Prop :=
  ∀ f : Flags,
    f.pack.getLsbD 7 = f.z ∧ f.pack.getLsbD 6 = f.n ∧ f.pack.getLsbD 5 = f.h ∧ f.pack.getLsbD 4 = f.c ∧
    f.pack.toNat % 16 = 0

/-- R25: unpack reads bits 7 to 4 and ignores the rest, and the two conversions round-trip. -/
def Obligations.PackUnpackRoundTrip : Prop :=
  (∀ b : Byte, Flags.unpack b = ⟨b.getLsbD 7, b.getLsbD 6, b.getLsbD 5, b.getLsbD 4⟩) ∧
  (∀ f : Flags, Flags.unpack f.pack = f) ∧
  (∀ b : Byte, (Flags.unpack b).pack = b &&& 0xF0#8)

/-- R26: each pair is its two halves, the first-named one high; AF is A with the packed flags. -/
def Obligations.PairViewIsHighByteFirst : Prop :=
  ∀ rf : RegisterFile,
    (rf.pair .bc).toNat = 256 * rf.b.toNat + rf.c.toNat ∧
    (rf.pair .de).toNat = 256 * rf.d.toNat + rf.e.toNat ∧
    (rf.pair .hl).toNat = 256 * rf.h.toNat + rf.l.toNat ∧
    (rf.pair .af).toNat = 256 * rf.a.toNat + rf.flags.pack.toNat

/-- R27: a pair write sets the two halves and nothing else; reading it back gives the value, for AF without its low nibble. -/
def Obligations.PairWriteThenRead : Prop :=
  ∀ (rf : RegisterFile) (v : Word),
    let hi := BitVec.ofNat 8 (v.toNat / 256)
    let lo := BitVec.ofNat 8 (v.toNat % 256)
    rf.setPair .bc v = { rf with b := hi, c := lo } ∧
    rf.setPair .de v = { rf with d := hi, e := lo } ∧
    rf.setPair .hl v = { rf with h := hi, l := lo } ∧
    rf.setPair .af v = { rf with a := hi, flags := Flags.unpack lo } ∧
    (rf.setPair .bc v).pair .bc = v ∧ (rf.setPair .de v).pair .de = v ∧ (rf.setPair .hl v).pair .hl = v ∧
    (rf.setPair .af v).pair .af = v &&& 0xFFF0#16

/-- R52: an 8-bit access sees and changes its half of the pair and no other; AF's bits 3 to 0 read as zero. -/
def Obligations.HalvesOfAPair : Prop :=
  ∀ (rf : RegisterFile) (v : Byte),
    highHalf (rf.pair .bc) = rf.reg8 .b ∧ lowHalf (rf.pair .bc) = rf.reg8 .c ∧
    highHalf (rf.pair .de) = rf.reg8 .d ∧ lowHalf (rf.pair .de) = rf.reg8 .e ∧
    highHalf (rf.pair .hl) = rf.reg8 .h ∧ lowHalf (rf.pair .hl) = rf.reg8 .l ∧
    highHalf (rf.pair .af) = rf.reg8 .a ∧ lowHalf (rf.pair .af) = rf.flags.pack ∧
    (rf.setReg8 .b v).pair .bc = joinBytes v rf.c ∧ (rf.setReg8 .c v).pair .bc = joinBytes rf.b v ∧
    (rf.setReg8 .d v).pair .de = joinBytes v rf.e ∧ (rf.setReg8 .e v).pair .de = joinBytes rf.d v ∧
    (rf.setReg8 .h v).pair .hl = joinBytes v rf.l ∧ (rf.setReg8 .l v).pair .hl = joinBytes rf.h v ∧
    (rf.setReg8 .a v).pair .af = joinBytes v rf.flags.pack ∧
    (rf.pair .af).toNat % 16 = 0

/-! ## The host's accesses, as steps -/

/-- R31, R33, R35, R36: each host read returns the value the rule names and writes nothing (R38); only the reply and the
queue change. -/
def Obligations.HostReads : Prop :=
  ∀ (s : State) (rest : List Transaction), s.constructed = true →
    (∀ rv ∈ [(ArithmeticTarget.a, s.rf.a), (.b, s.rf.b), (.c, s.rf.c), (.d, s.rf.d), (.e, s.rf.e), (.h, s.rf.h), (.l, s.rf.l)],
      step { s with pending := .host (.readReg rv.1) :: rest } =
        .next { s with pending := rest, reply := .regValue rv.2 }) ∧
    (∀ p : Pair, step { s with pending := .host (.getPair p) :: rest } =
      .next { s with pending := rest, reply := .pairValue p (s.rf.pair p) }) ∧
    (step { s with pending := .host .readFlags :: rest } =
      .next { s with pending := rest, reply := .flagsByte s.rf.flags.pack }) ∧
    s.rf.flags.pack.toNat % 16 = 0 ∧
    (∀ fv ∈ [(FlagName.z, s.rf.flags.z), (.n, s.rf.flags.n), (.h, s.rf.flags.h), (.c, s.rf.flags.c)],
      step { s with pending := .host (.readFlag fv.1) :: rest } =
        .next { s with pending := rest, reply := .flagValue fv.2 })

/-- R32: WriteReg sets the register it names to any value, changes no other register and no flag, and cannot fail. -/
def Obligations.WriteRegisterSetsItAlone : Prop :=
  ∀ (s : State) (rest : List Transaction) (r : ArithmeticTarget) (v : Byte), s.constructed = true →
    ∃ t : State, step { s with pending := .host (.writeReg r v) :: rest } = .next t ∧
      t.rf.reg8 r = v ∧ (∀ q, q ≠ r → t.rf.reg8 q = s.rf.reg8 q) ∧ t.rf.flags = s.rf.flags ∧
      t.constructed = true ∧ t.pending = rest ∧ t.onFault = s.onFault ∧ t.log = s.log

/-- R34: SetPair performs the pair write as one transaction and cannot fail. -/
def Obligations.SetPairWritesBothHalves : Prop :=
  ∀ (s : State) (rest : List Transaction) (v : Word), s.constructed = true →
    let hi := BitVec.ofNat 8 (v.toNat / 256)
    let lo := BitVec.ofNat 8 (v.toNat % 256)
    ∀ pr ∈ [(Pair.bc, { s.rf with b := hi, c := lo }), (.de, { s.rf with d := hi, e := lo }),
        (.hl, { s.rf with h := hi, l := lo }),
        (.af, { s.rf with a := hi, flags := ⟨v.getLsbD 7, v.getLsbD 6, v.getLsbD 5, v.getLsbD 4⟩ })],
      ∃ t : State, step { s with pending := .host (.setPair pr.1 v) :: rest } = .next t ∧ t.rf = pr.2 ∧
        t.constructed = true ∧ t.pending = rest ∧ t.onFault = s.onFault ∧ t.log = s.log

/-- R37: between instructions the host may write the flags (C1): WriteFlags unpacks the byte's high nibble, ignores its low
one, and leaves every register. -/
def Obligations.WriteFlagsUnpacksTheByte : Prop :=
  ∀ (s : State) (rest : List Transaction) (b : Byte), s.constructed = true →
    ∃ t : State, step { s with pending := .host (.writeFlags b) :: rest } = .next t ∧
      t.rf = { s.rf with flags := ⟨b.getLsbD 7, b.getLsbD 6, b.getLsbD 5, b.getLsbD 4⟩ } ∧
      t.constructed = true ∧ t.pending = rest ∧ t.onFault = s.onFault ∧ t.log = s.log

/-- 10_state.md section 7 and 70_reset_and_hazards.md section 1: the host's writes and Construct return no value. That the reply is
then `done`, in place of whatever it was, is the model's (log entry 4); the wire-level writes (R39) reply the same. -/
def Obligations.WritesReturnNothing : Prop :=
  ∀ (s : State) (rest : List Transaction),
    (∃ t : State, step { s with pending := .construct :: rest } = .next t ∧ t.reply = .done) ∧
    (s.constructed = true → ∀ (r : ArithmeticTarget) (v : Byte) (p : Pair) (w : Word) (b : Byte),
      ∀ q ∈ [HostAccess.writeReg r v, .setPair p w, .writeFlags b],
        (∃ t : State, step { s with pending := .host q :: rest } = .next t ∧ t.reply = .done) ∧
        (∀ q' : WireAccess, q'.access = some q →
          ∃ t : State, step { s with pending := .wire q' :: rest } = .next t ∧ t.reply = .done))

/-- R39: the selector codes of the wire-level host port; ReadReg and WriteReg with code 6 are refused by name: no next state
and no value. -/
def Obligations.HostPortSelectorCodes : Prop :=
  (∀ cr ∈ [(0#3, ArithmeticTarget.b), (1#3, .c), (2#3, .d), (3#3, .e), (4#3, .h), (5#3, .l), (7#3, .a)],
    ∀ (s : State) (v : Byte),
      wireAccess (.readReg cr.1) s = .next (hostAccess (.readReg cr.2) s) ∧
      wireAccess (.writeReg cr.1 v) s = .next (hostAccess (.writeReg cr.2 v) s)) ∧
  (∀ (s : State) (v : Byte),
    wireAccess (.readReg 6#3) s = .refused .registerCode6 ∧ wireAccess (.writeReg 6#3 v) s = .refused .registerCode6) ∧
  (∀ cp ∈ [(0#2, Pair.bc), (1#2, .de), (2#2, .hl), (3#2, .af)], ∀ (s : State) (v : Word),
    wireAccess (.getPair cp.1) s = .next (hostAccess (.getPair cp.2) s) ∧
    wireAccess (.setPair cp.1 v) s = .next (hostAccess (.setPair cp.2 v) s)) ∧
  (∀ cf ∈ [(3#2, FlagName.z), (2#2, .n), (1#2, .h), (0#2, .c)], ∀ s : State,
    wireAccess (.readFlag cf.1) s = .next (hostAccess (.readFlag cf.2) s) ∧
    s.rf.flags.get cf.2 = s.rf.flags.pack.getLsbD (cf.1.toNat + 4)) ∧
  (∀ (s : State) (b : Byte),
    wireAccess .readFlags s = .next (hostAccess .readFlags s) ∧
    wireAccess (.writeFlags b) s = .next (hostAccess (.writeFlags b) s))

/-- 20_memory.md section 3: every host read and every host write is idempotent: repeating it gives the same state. -/
def Obligations.HostAccessesAreIdempotent : Prop :=
  ∀ (q : HostAccess) (s : State), hostAccess q (hostAccess q s) = hostAccess q s

/-- 70_reset_and_hazards.md section 2: host writes to disjoint parts of the Register File may come in either order. -/
def Obligations.DisjointHostWritesCommute : Prop :=
  ∀ (q q' : HostAccess) (s : State), (∀ r ∈ hostWrites q, r ∉ hostWrites q') →
    ¬ (hostWritesFlags q = true ∧ hostWritesFlags q' = true) →
    (hostAccess q (hostAccess q' s)).rf = (hostAccess q' (hostAccess q s)).rf

/-! ## Steps -/

/-- When the word the caller issues decodes to an instruction, the step is Execute of that instruction on the state with the
word taken from the queue, handed to the caller; the same for an Instruction value; and withFetchWord makes the next step run
its word. The queue is the model's own (log entry 1). -/
def Obligations.StepRunsTheDecodedInstruction : Prop :=
  (∀ (s : State) (rest : List Transaction) (w : Byte) (i : Instr), s.constructed = true → decode w = .instr i →
    step { s with pending := .executeWord w :: rest } = handOver (exec i { s with pending := rest })) ∧
  (∀ (s : State) (rest : List Transaction) (i : Instr), s.constructed = true →
    step { s with pending := .execute i :: rest } = handOver (exec i { s with pending := rest })) ∧
  (∀ (s : State) (nbits w : Nat) (i : Instr), decodeTableWord nbits w = some i →
    step (s.withFetchWord nbits w) = handOver (exec i { s with constructed := true }))

/-- 20_memory.md section 4: transactions run one at a time in the caller's order: a step takes the oldest one and leaves the
others, and with none queued it changes nothing. The queue is the model's own (log entry 1). -/
def Obligations.StepTakesTheOldestTransaction : Prop :=
  (∀ s : State, s.pending = [] → step s = .next s) ∧
  (∀ (s t : State) (tr : Transaction) (rest : List Transaction), s.pending = tr :: rest → step s = .next t →
    t.pending = rest ∧ t.onFault = s.onFault)

/-- 70_reset_and_hazards.md section 2 (K10): on an instance never constructed every transaction but Construct is stuck. -/
def Obligations.UnconstructedInstanceIsStuck : Prop :=
  ∀ (s : State) (tr : Transaction) (rest : List Transaction), s.constructed = false →
    (tr ≠ .construct → step { s with pending := tr :: rest } = .fault .notConstructed) ∧
    (tr = .construct → ∃ t : State, step { s with pending := tr :: rest } = .next t ∧ t.constructed = true ∧
      t.rf = RegisterFile.zero)

/-- The invariant holds at reset (R44, R193; the caller's fields at reset are log entries 2 and 4). -/
def Obligations.ResetMeetsTheInvariant : Prop :=
  CoreInvariant State.reset

/-- Every step keeps the invariant: the instance stays constructed, every reply is one the CORE can give (R160's statuses with
their infos; bits 3 to 0 of the flags byte and of AF zero, R24 and R40), and the log holds only error statuses. -/
def Obligations.EveryStepKeepsTheInvariant : Prop :=
  ∀ s t : State, CoreInvariant s → step s = .next t → CoreInvariant t

/-- 10_state.md sections 2, 3 and 8 and 40_dispatch.md section 1, over all transactions: a step changes only the registers its
transaction may write (A for ADD, ADC, SUB; H and L for ADDHL; what a host write names; all for Construct), so no instruction
ever changes B, C, D or E, and it changes the flags only for the implemented instructions, WriteFlags, SetPair(AF) and
Construct. -/
def Obligations.OnlyNamedTransactionsWrite : Prop :=
  (∀ (s t : State) (tr : Transaction) (rest : List Transaction), s.pending = tr :: rest → step s = .next t →
    (∀ r, r ∉ mayWrite tr → t.rf.reg8 r = s.rf.reg8 r) ∧
    (mayWriteFlags tr = false → t.rf.flags = s.rf.flags)) ∧
  (∀ (i : Instr), ∀ r ∈ [ArithmeticTarget.b, .c, .d, .e], r ∉ mayWrite (.execute i))

/-- When a step stops, exactly: a fault is either a transaction other than Construct on an instance never constructed
(70_reset_and_hazards.md section 2, D21, K10; log entry 3), or an error status the caller halts on (60_exceptions.md section 1,
D19; log entry 2); a refusal is a wire access whose code selects no register (10_state.md section 7, D2, K11; log entry 6). So
no implemented instruction ever stops. -/
def Obligations.StepStopsExactlyWhen : Prop :=
  ∀ (s : State) (tr : Transaction) (rest : List Transaction), s.pending = tr :: rest →
    ((∃ f, step s = .fault f) ↔
      (s.constructed = false ∧ tr ≠ .construct) ∨
      (s.constructed = true ∧ ∃ st, statusOfTransaction tr = some st ∧ st ≠ .ok ∧ s.onFault.reaction st = .halt)) ∧
    ((∃ r, step s = .refused r) ↔ s.constructed = true ∧ ∃ q, tr = .wire q ∧ q.access = none)

/-- A caller that issues only implemented instructions and host accesses that name a register meets no error, however long it
goes on and whatever its policy is. -/
def Obligations.CleanTransactionsNeverErr : Prop :=
  ∀ (k : Nat) (s : State), s.constructed = true → errorReply s.reply = false →
    (∀ tr ∈ s.pending, cleanTransaction tr = true) → CleanRun k s
end

