-- ==== Sys2Proof/Laws/Decode.lean ====
section
/-! SUPPORT. The fields of the port word, there and back (30_encoding.md R76 to R78), and the two spellings of an instruction. -/

namespace Sys2Proof

@[simp] theorem targetOf_code (t : ArithmeticTarget) : targetOf t.code = some t := by
  cases t <;> decide

theorem targetOf_eq_none {r : BitVec 3} : targetOf r = none ↔ r = 0b110#3 := by
  revert r
  decide

@[simp] theorem addHlTargetOf_code (p : AddHlTarget) : addHlTargetOf p.code = p := by
  cases p <;> decide

@[simp] theorem Instr.toInstr_value (i : Instr) : i.value.toInstr = i := by
  cases i <;> rfl

@[simp] theorem Instruction.value_toInstr (v : Instruction) : v.toInstr.value = v := by
  cases v with
  | addhl p => cases p <;> rfl
  | _ t => cases t <;> rfl

/-- An unassigned word is reported as itself (R83). -/
theorem decode_unassigned {w u : Byte} (h : decode w = .unassigned u) : u = w := by
  unfold decode at h
  split at h
  · cases h
  · cases h
    rfl

end Sys2Proof
end

