-- ==== Sys2Proof/Laws/Flags.lean ====
section
/-! SUPPORT. The bits of the flags byte, the halves of a pair's value, and the value and flags of each ALU primitive, one
lemma per field (10_state.md R24 to R27, 41_alu8.md R120 and R121, 42_alu16.md R140). -/

namespace Sys2Proof.Machine

/-! ## Halves of a pair's value -/

@[simp] theorem highHalf_joinBytes (x y : Byte) : highHalf (joinBytes x y) = x := by
  apply BitVec.eq_of_toNat_eq
  simp only [highHalf, joinBytes, BitVec.extractLsb'_toNat, BitVec.toNat_append, Nat.shiftRight_eq_div_pow]
  rw [← Nat.shiftLeft_add_eq_or_of_lt y.isLt, Nat.shiftLeft_eq]
  omega

@[simp] theorem lowHalf_joinBytes (x y : Byte) : lowHalf (joinBytes x y) = y := by
  apply BitVec.eq_of_toNat_eq
  simp only [lowHalf, joinBytes, BitVec.extractLsb'_toNat, BitVec.toNat_append, Nat.shiftRight_eq_div_pow]
  rw [← Nat.shiftLeft_add_eq_or_of_lt y.isLt, Nat.shiftLeft_eq]
  omega

/-- A pair's value as a number: the first-named register is the high byte (R26). -/
theorem joinBytes_toNat (x y : Byte) : (joinBytes x y).toNat = 256 * x.toNat + y.toNat := by
  simp only [joinBytes, BitVec.toNat_append]
  rw [← Nat.shiftLeft_add_eq_or_of_lt y.isLt, Nat.shiftLeft_eq]
  omega

@[simp] theorem joinBytes_halves (v : Word) : joinBytes (highHalf v) (lowHalf v) = v := by
  apply BitVec.eq_of_toNat_eq
  rw [joinBytes_toNat]
  simp only [highHalf, lowHalf, BitVec.extractLsb'_toNat, Nat.shiftRight_eq_div_pow]
  have := v.isLt
  omega

/-! ## The flags byte -/

@[simp] theorem Flags.unpack_z (b : Byte) : (Flags.unpack b).z = b.getLsbD 7 := rfl
@[simp] theorem Flags.unpack_n (b : Byte) : (Flags.unpack b).n = b.getLsbD 6 := rfl
@[simp] theorem Flags.unpack_h (b : Byte) : (Flags.unpack b).h = b.getLsbD 5 := rfl
@[simp] theorem Flags.unpack_c (b : Byte) : (Flags.unpack b).c = b.getLsbD 4 := rfl

theorem Flags.pack_low_nibble (f : Flags) : lowNibble f.pack = 0 := by
  obtain ⟨z, n, h, c⟩ := f
  cases z <;> cases n <;> cases h <;> cases c <;> rfl

/-! ## The primitives, field by field -/

section Primitives

variable (f : Flags) (x y : Byte) (u : Bool) (p q : Word)

theorem add8_value : (add8 f x y u).value = BitVec.ofNat 8 (x.toNat + y.toNat + carryIn f u) := rfl
theorem add8_flags_n : (add8 f x y u).flags.n = false := rfl
theorem add8_flags_h :
    (add8 f x y u).flags.h = decide (x.toNat % 16 + y.toNat % 16 + carryIn f u > 15) := rfl
theorem add8_flags_c : (add8 f x y u).flags.c = decide (x.toNat + y.toNat + carryIn f u > 255) := rfl

theorem carryIn_le_one : carryIn f u ≤ 1 := by
  unfold carryIn bit
  split
  · cases f.c <;> decide
  · decide

/-- Plain ADD takes no carry-in (R122). -/
theorem carryIn_false : carryIn f false = 0 := rfl

theorem sub8_value : (sub8 x y).value = BitVec.ofInt 8 ((x.toNat : Int) - y.toNat) := rfl
theorem sub8_flags_n : (sub8 x y).flags.n = true := rfl
theorem sub8_flags_h : (sub8 x y).flags.h = decide (y.toNat % 16 > x.toNat % 16) := rfl
theorem sub8_flags_c : (sub8 x y).flags.c = decide (y.toNat > x.toNat) := rfl

theorem add16_value : (add16 p q).value = BitVec.ofNat 16 (p.toNat + q.toNat) := rfl
theorem add16_flags_n : (add16 p q).flags.n = false := rfl
theorem add16_flags_h : (add16 p q).flags.h = decide (p.toNat % 256 + q.toNat % 256 > 15) := rfl
theorem add16_flags_c : (add16 p q).flags.c = decide (p.toNat + q.toNat > 65535) := rfl

end Primitives

end Sys2Proof.Machine
end

