-- ==== Sys2Proof/Laws/State.lean ====
section
/-! SUPPORT. One lemma per field per update of the state and of the Register File. -/

namespace Sys2Proof.Machine

/-! ## State updates -/

section StateUpdates

variable (s : State) (r : Reply) (rf : RegisterFile) (w : Byte) (ws : List Byte)

@[simp] theorem State.construct_rf : s.construct.rf = .zero := rfl
@[simp] theorem State.construct_constructed : s.construct.constructed = true := rfl
@[simp] theorem State.construct_reply : s.construct.reply = .done := rfl
@[simp] theorem State.construct_pending : s.construct.pending = s.pending := rfl
@[simp] theorem State.construct_onFault : s.construct.onFault = s.onFault := rfl
@[simp] theorem State.construct_log : s.construct.log = s.log := rfl

@[simp] theorem State.answer_rf : (s.answer r).rf = s.rf := rfl
@[simp] theorem State.answer_constructed : (s.answer r).constructed = s.constructed := rfl
@[simp] theorem State.answer_reply : (s.answer r).reply = r := rfl
@[simp] theorem State.answer_pending : (s.answer r).pending = s.pending := rfl
@[simp] theorem State.answer_onFault : (s.answer r).onFault = s.onFault := rfl
@[simp] theorem State.answer_log : (s.answer r).log = s.log := rfl

@[simp] theorem State.store_rf : (s.store rf).rf = rf := rfl
@[simp] theorem State.store_constructed : (s.store rf).constructed = s.constructed := rfl
@[simp] theorem State.store_reply : (s.store rf).reply = .done := rfl
@[simp] theorem State.store_pending : (s.store rf).pending = s.pending := rfl
@[simp] theorem State.store_onFault : (s.store rf).onFault = s.onFault := rfl
@[simp] theorem State.store_log : (s.store rf).log = s.log := rfl

@[simp] theorem State.issueWord_rf : (s.issueWord w).rf = s.rf := rfl
@[simp] theorem State.issueWord_constructed : (s.issueWord w).constructed = true := rfl
@[simp] theorem State.issueWord_reply : (s.issueWord w).reply = s.reply := rfl
@[simp] theorem State.issueWord_pending : (s.issueWord w).pending = .executeWord w :: s.pending := rfl
@[simp] theorem State.issueWord_onFault : (s.issueWord w).onFault = s.onFault := rfl
@[simp] theorem State.issueWord_log : (s.issueWord w).log = s.log := rfl

@[simp] theorem State.queueProgram_rf : (s.queueProgram ws).rf = s.rf := rfl
@[simp] theorem State.queueProgram_constructed : (s.queueProgram ws).constructed = s.constructed := rfl
@[simp] theorem State.queueProgram_reply : (s.queueProgram ws).reply = s.reply := rfl
@[simp] theorem State.queueProgram_pending :
    (s.queueProgram ws).pending = s.pending ++ ws.map .executeWord := rfl
@[simp] theorem State.queueProgram_onFault : (s.queueProgram ws).onFault = s.onFault := rfl
@[simp] theorem State.queueProgram_log : (s.queueProgram ws).log = s.log := rfl

end StateUpdates

/-! ## Register File updates -/

section RegisterFileUpdates

variable (rf : RegisterFile) (v : Byte) (x : Word)

@[simp] theorem RegisterFile.reg8_setReg8_self (t : ArithmeticTarget) : (rf.setReg8 t v).reg8 t = v := by
  cases t <;> rfl

theorem RegisterFile.reg8_setReg8_of_ne {t u : ArithmeticTarget} (h : u ≠ t) :
    (rf.setReg8 t v).reg8 u = rf.reg8 u := by
  cases t <;> cases u <;> first | rfl | exact absurd rfl h

@[simp] theorem RegisterFile.flags_setReg8 (t : ArithmeticTarget) : (rf.setReg8 t v).flags = rf.flags := by
  cases t <;> rfl

@[simp] theorem RegisterFile.setPair_bc_b : (rf.setPair .bc x).b = highHalf x := rfl
@[simp] theorem RegisterFile.setPair_bc_c : (rf.setPair .bc x).c = lowHalf x := rfl
@[simp] theorem RegisterFile.setPair_de_d : (rf.setPair .de x).d = highHalf x := rfl
@[simp] theorem RegisterFile.setPair_de_e : (rf.setPair .de x).e = lowHalf x := rfl
@[simp] theorem RegisterFile.setPair_hl_h : (rf.setPair .hl x).h = highHalf x := rfl
@[simp] theorem RegisterFile.setPair_hl_l : (rf.setPair .hl x).l = lowHalf x := rfl
@[simp] theorem RegisterFile.setPair_af_a : (rf.setPair .af x).a = highHalf x := rfl
@[simp] theorem RegisterFile.setPair_af_flags : (rf.setPair .af x).flags = Flags.unpack (lowHalf x) := rfl

/-- A pair write leaves the flags alone unless the pair is AF (R27). -/
theorem RegisterFile.flags_setPair_of_ne {p : Pair} (h : p ≠ .af) : (rf.setPair p x).flags = rf.flags := by
  cases p <;> first | rfl | exact absurd rfl h

end RegisterFileUpdates

end Sys2Proof.Machine
end

