-- ==== Sys2Proof/Laws/Ops.lean ====
section
/-! SUPPORT. What each shared operation can do, said once. -/

namespace Sys2Proof.Machine

variable {s t : State}

/-- Completing writes the Register File and the status, and nothing else (R10). -/
theorem complete_next {rf : RegisterFile} (h : complete rf s = .next t) :
    t = { s with rf := rf, reply := .status .ok } := by
  cases h
  rfl

/-- Returning an error status writes the status and nothing else (R163). -/
theorem raise_next {st : Status} (h : raise st s = .next t) : t = { s with reply := .status st } := by
  cases h
  rfl

/-- ADD and ADC write A and the flags (R103). -/
theorem addToA_next {r : ArithmeticTarget} {u : Bool} (h : addToA r u s = .next t) :
    t = { s with rf := { s.rf with a := (add8 s.rf.flags s.rf.a (s.rf.reg8 r) u).value,
                                   flags := (add8 s.rf.flags s.rf.a (s.rf.reg8 r) u).flags },
                 reply := .status .ok } :=
  complete_next h

/-- SUB writes A and the flags (R103). -/
theorem subFromA_next {r : ArithmeticTarget} (h : subFromA r s = .next t) :
    t = { s with rf := { s.rf with a := (sub8 s.rf.a (s.rf.reg8 r)).value,
                                   flags := (sub8 s.rf.a (s.rf.reg8 r)).flags },
                 reply := .status .ok } :=
  complete_next h

/-- ADDHL writes H, L and the flags (R103, R141). -/
theorem addToHl_next {p : Pair} (h : addToHl p s = .next t) :
    t = { s with rf := { s.rf with h := highHalf (add16 (s.rf.pair .hl) (s.rf.pair p)).value,
                                   l := lowHalf (add16 (s.rf.pair .hl) (s.rf.pair p)).value,
                                   flags := (add16 (s.rf.pair .hl) (s.rf.pair p)).flags },
                 reply := .status .ok } :=
  complete_next h

/-- A host access changes the Register File and the reply only. -/
theorem hostAccess_caller (q : HostAccess) (s : State) :
    (hostAccess q s).constructed = s.constructed ∧ (hostAccess q s).pending = s.pending ∧
      (hostAccess q s).onFault = s.onFault ∧ (hostAccess q s).log = s.log := by
  cases q <;> exact ⟨rfl, rfl, rfl, rfl⟩

/-- A wire-level access answers the access its codes select. -/
theorem wireAccess_next {q : WireAccess} (h : wireAccess q s = .next t) :
    ∃ a, q.access = some a ∧ t = hostAccess a s := by
  unfold wireAccess at h
  split at h
  · exact ⟨_, ‹_›, by cases h; rfl⟩
  · cases h

/-- The caller's reaction goes on only with the state as it was, or with the status appended to the log (R164). -/
theorem State.reactTo_next {st : Status} {f : Fault} (h : s.reactTo st f = .next t) :
    t = s ∨ t = { s with log := s.log ++ [st] } := by
  unfold State.reactTo at h
  split at h
  · cases h
  · cases h
    exact .inr rfl
  · cases h
    exact .inl rfl

/-- A reaction of the caller's leaves the log alone, or appends the error status just returned (R164). -/
theorem State.react_next (h : s.react = .next t) :
    t = s ∨ ∃ st, st ≠ .ok ∧ s.reply = .status st ∧ t = { s with log := s.log ++ [st] } := by
  unfold State.react at h
  split at h
  · rcases State.reactTo_next h with rfl | rfl
    · exact .inl rfl
    · exact .inr ⟨_, by simp, ‹_›, rfl⟩
  · rcases State.reactTo_next h with rfl | rfl
    · exact .inl rfl
    · exact .inr ⟨_, by simp, ‹_›, rfl⟩
  all_goals
    cases h
    exact .inl rfl

/-- What the caller goes on with is a reaction to the next state of the Execute. -/
theorem handOver_next {o : Host.Outcome State Fault Refusal} (h : handOver o = .next t) :
    ∃ u, o = .next u ∧ u.react = .next t := by
  unfold handOver at h
  split at h
  · exact ⟨_, rfl, h⟩
  · cases h
  · cases h

end Sys2Proof.Machine
end

