-- ==== Sys2Proof/Laws/Step.lean ====
section
/-! SUPPORT. What an Execute and a step can do, said once. -/

namespace Sys2Proof.Machine

/-- Every instruction is one of five operations, in every state, by its value: an add into A without or with the carry, a
subtract from A, an add of a pair with storage into HL, or an error status (R102). -/
theorem exec_cases (i : Instr) :
    (∃ r, i.value = .add r ∧ ∀ s, exec i s = addToA r false s) ∨
    (∃ r, i.value = .adc r ∧ ∀ s, exec i s = addToA r true s) ∨
    (∃ r, i.value = .sub r ∧ ∀ s, exec i s = subFromA r s) ∨
    (∃ q p, i.value = .addhl q ∧ p ≠ .af ∧ ∀ s, exec i s = addToHl p s) ∨
    (∃ st, st ≠ .ok ∧ ∀ s, exec i s = raise st s) := by
  cases i
  case addhlBc => exact .inr (.inr (.inr (.inl ⟨_, .bc, rfl, (by decide), fun _ => rfl⟩)))
  case addhlDe => exact .inr (.inr (.inr (.inl ⟨_, .de, rfl, (by decide), fun _ => rfl⟩)))
  case addhlHl => exact .inr (.inr (.inr (.inl ⟨_, .hl, rfl, (by decide), fun _ => rfl⟩)))
  all_goals first
    | exact .inl ⟨_, rfl, fun _ => rfl⟩
    | exact .inr (.inl ⟨_, rfl, fun _ => rfl⟩)
    | exact .inr (.inr (.inl ⟨_, rfl, fun _ => rfl⟩))
    | exact .inr (.inr (.inr (.inr ⟨_, (by intro h; cases h), fun _ => rfl⟩)))

/-- A guarded transaction answers a next state only on a constructed instance (R193). -/
theorem whenConstructed_next {s t : State} {o : Host.Outcome State Fault Refusal} (h : whenConstructed s o = .next t) :
    s.constructed = true ∧ o = .next t := by
  unfold whenConstructed at h
  split at h
  · exact ⟨‹_›, h⟩
  · cases h

/-- Execute changes the Register File and the reply only: the caller's fields are not the CORE's. -/
theorem exec_caller {i : Instr} {s t : State} (h : exec i s = .next t) :
    t.constructed = s.constructed ∧ t.pending = s.pending ∧ t.onFault = s.onFault ∧ t.log = s.log := by
  cases i <;> cases h <;> exact ⟨rfl, rfl, rfl, rfl⟩

/-- Execute returns a status (R100). -/
theorem exec_reply {i : Instr} {s t : State} (h : exec i s = .next t) : ∃ st, t.reply = .status st := by
  cases i <;> cases h <;> exact ⟨_, rfl⟩

/-- The five kinds of transaction a step that answers a next state can have run. -/
theorem transact_next {tr : Transaction} {s t : State} (h : transact tr s = .next t) :
    (tr = .construct ∧ t = s.construct) ∨
    (∃ i, tr = .execute i ∧ s.constructed = true ∧ handOver (exec i s) = .next t) ∨
    (∃ w, tr = .executeWord w ∧ s.constructed = true ∧ handOver (executeWord w s) = .next t) ∨
    (∃ q, tr = .host q ∧ s.constructed = true ∧ t = hostAccess q s) ∨
    (∃ q a, tr = .wire q ∧ s.constructed = true ∧ q.access = some a ∧ t = hostAccess a s) := by
  cases tr with
  | construct =>
    cases h
    exact .inl ⟨rfl, rfl⟩
  | execute i =>
    obtain ⟨hc, hn⟩ := whenConstructed_next h
    exact .inr (.inl ⟨i, rfl, hc, hn⟩)
  | executeWord w =>
    obtain ⟨hc, hn⟩ := whenConstructed_next h
    exact .inr (.inr (.inl ⟨w, rfl, hc, hn⟩))
  | host q =>
    obtain ⟨hc, hn⟩ := whenConstructed_next h
    cases hn
    exact .inr (.inr (.inr (.inl ⟨q, rfl, hc, rfl⟩)))
  | wire q =>
    obtain ⟨hc, hn⟩ := whenConstructed_next h
    obtain ⟨a, ha, rfl⟩ := wireAccess_next hn
    exact .inr (.inr (.inr (.inr ⟨q, a, rfl, hc, ha, rfl⟩)))

/-- ExecuteWord is Execute of the decoded instruction, or the error of an unassigned word (R101). -/
theorem executeWord_eq (w : Byte) (s : State) :
    (∃ i, Sys2Proof.decode w = .instr i ∧ executeWord w s = exec i s) ∨
    (∃ u, Sys2Proof.decode w = .unassigned u ∧ executeWord w s = raise (.unsupportedInstruction (.word u)) s) := by
  unfold executeWord
  split
  · exact .inl ⟨_, ‹_›, rfl⟩
  · exact .inr ⟨_, ‹_›, rfl⟩

/-- An empty queue leaves the CORE waiting (R192). -/
theorem step_nil {s : State} (h : s.pending = []) : step s = .next s := by
  unfold step runNext
  rw [h]

/-- A step runs the oldest pending transaction (R56). -/
theorem step_cons {s : State} {tr : Transaction} {rest : List Transaction} (h : s.pending = tr :: rest) :
    step s = transact tr { s with pending := rest } := by
  unfold step runNext
  rw [h]

/-- The step after withFetchWord is ExecuteWord of the table's word (log entry 1). -/
theorem step_withFetchWord (s : State) (nbits w : Nat) :
    step (s.withFetchWord nbits w) =
      handOver (executeWord (Sys2Proof.tableWord nbits w) { s with constructed := true }) := rfl

end Sys2Proof.Machine
end

