-- ==== Sys2Proof/Tests/Slice0.lean ====
section
/-! SUPPORT. Tests. Expected results are the spec's: its opcode tables (30_encoding.md R80, R81) and its vectors
(95_test_vectors.md L1, V-FLAGS, V-PAIR, V-DECODE, V-ADD, V-ADC, V-SUB, V-ADDHL, V-FAULT, V-RESET), or hand calculation from
the rules. The witness theorems show, for each statement with hypotheses, a state and operands that meet them. -/

namespace Sys2Proof.Tests

open Sys2Proof.Machine Sys2Proof.Safety

/-! ## Builders -/

/-- A constructed instance with these registers and this flags byte, and these transactions queued. -/
def mk (a b c d e h l f : Byte) (pending : List Transaction := []) : State :=
  { State.reset with rf := ⟨a, b, c, d, e, h, l, Flags.unpack f⟩, pending := pending }

/-- The Register File after a step from `s` with the port word `w` issued. -/
def after (s : State) (w : Nat) : Option RegisterFile :=
  match step (s.withFetchWord 8 w) with
  | .next t => some t.rf
  | .fault _ => none
  | .refused _ => none

/-- The reply after a step from `s` with the port word `w` issued. -/
def replied (s : State) (w : Nat) : Option Reply :=
  match step (s.withFetchWord 8 w) with
  | .next t => some t.reply
  | .fault _ => none
  | .refused _ => none

/-- A and pack(F) after a step. -/
def aAndF (s : State) (w : Nat) : Option (Byte × Byte) :=
  (after s w).map fun rf => (rf.a, rf.flags.pack)

/-- HL and pack(F) after a step. -/
def hlAndF (s : State) (w : Nat) : Option (Word × Byte) :=
  (after s w).map fun rf => (rf.pair .hl, rf.flags.pack)

/-! ## Well-formedness: an ill-formed term for each check (R83, R39) -/

theorem test_wf_refuses_memory_form : assignedWord 0x86#8 = false := by decide
theorem test_wf_refuses_excluded_sbc : assignedWord 0x9E#8 = false := by decide
theorem test_wf_refuses_inc_memory : assignedWord 0x34#8 = false := by decide
theorem test_wf_refuses_just_outside : assignedWord 0x7F#8 = false ∧ assignedWord 0xC0#8 = false ∧ assignedWord 0x49#8 = false := by
  decide
theorem test_wf_accepts_ends : assignedWord 0x80#8 = true ∧ assignedWord 0xBF#8 = true ∧ assignedWord 0x39#8 = true := by
  decide
theorem test_wf_register_code : registerCodeWf 6#3 = false ∧ registerCodeWf 7#3 = true ∧ registerCodeWf 5#3 = true := by decide
theorem test_wf_code6_is_no_register : registerOf 6#3 = none := by decide

/-! ## Decoding: each instruction's word written out bit by bit (R75 to R78) -/

theorem test_decode_add :
    decode 0b10000000#8 = .instr .addB ∧
    decode 0b10000001#8 = .instr .addC ∧
    decode 0b10000010#8 = .instr .addD ∧
    decode 0b10000011#8 = .instr .addE ∧
    decode 0b10000100#8 = .instr .addH ∧
    decode 0b10000101#8 = .instr .addL ∧
    decode 0b10000111#8 = .instr .addA := by
  decide
theorem test_decode_adc :
    decode 0b10001000#8 = .instr .adcB ∧
    decode 0b10001001#8 = .instr .adcC ∧
    decode 0b10001010#8 = .instr .adcD ∧
    decode 0b10001011#8 = .instr .adcE ∧
    decode 0b10001100#8 = .instr .adcH ∧
    decode 0b10001101#8 = .instr .adcL ∧
    decode 0b10001111#8 = .instr .adcA := by
  decide
theorem test_decode_sub :
    decode 0b10010000#8 = .instr .subB ∧
    decode 0b10010001#8 = .instr .subC ∧
    decode 0b10010010#8 = .instr .subD ∧
    decode 0b10010011#8 = .instr .subE ∧
    decode 0b10010100#8 = .instr .subH ∧
    decode 0b10010101#8 = .instr .subL ∧
    decode 0b10010111#8 = .instr .subA := by
  decide
theorem test_decode_addhl :
    decode 0b00001001#8 = .instr .addhlBc ∧
    decode 0b00011001#8 = .instr .addhlDe ∧
    decode 0b00101001#8 = .instr .addhlHl ∧
    decode 0b00111001#8 = .instr .addhlSp := by
  decide
theorem test_decode_sbc :
    decode 0b10011000#8 = .instr .sbcB ∧
    decode 0b10011001#8 = .instr .sbcC ∧
    decode 0b10011010#8 = .instr .sbcD ∧
    decode 0b10011011#8 = .instr .sbcE ∧
    decode 0b10011100#8 = .instr .sbcH ∧
    decode 0b10011101#8 = .instr .sbcL ∧
    decode 0b10011111#8 = .instr .sbcA := by
  decide
theorem test_decode_and :
    decode 0b10100000#8 = .instr .andB ∧
    decode 0b10100001#8 = .instr .andC ∧
    decode 0b10100010#8 = .instr .andD ∧
    decode 0b10100011#8 = .instr .andE ∧
    decode 0b10100100#8 = .instr .andH ∧
    decode 0b10100101#8 = .instr .andL ∧
    decode 0b10100111#8 = .instr .andA := by
  decide
theorem test_decode_xor :
    decode 0b10101000#8 = .instr .xorB ∧
    decode 0b10101001#8 = .instr .xorC ∧
    decode 0b10101010#8 = .instr .xorD ∧
    decode 0b10101011#8 = .instr .xorE ∧
    decode 0b10101100#8 = .instr .xorH ∧
    decode 0b10101101#8 = .instr .xorL ∧
    decode 0b10101111#8 = .instr .xorA := by
  decide
theorem test_decode_or :
    decode 0b10110000#8 = .instr .orB ∧
    decode 0b10110001#8 = .instr .orC ∧
    decode 0b10110010#8 = .instr .orD ∧
    decode 0b10110011#8 = .instr .orE ∧
    decode 0b10110100#8 = .instr .orH ∧
    decode 0b10110101#8 = .instr .orL ∧
    decode 0b10110111#8 = .instr .orA := by
  decide
theorem test_decode_cp :
    decode 0b10111000#8 = .instr .cpB ∧
    decode 0b10111001#8 = .instr .cpC ∧
    decode 0b10111010#8 = .instr .cpD ∧
    decode 0b10111011#8 = .instr .cpE ∧
    decode 0b10111100#8 = .instr .cpH ∧
    decode 0b10111101#8 = .instr .cpL ∧
    decode 0b10111111#8 = .instr .cpA := by
  decide
theorem test_decode_inc :
    decode 0b00000100#8 = .instr .incB ∧
    decode 0b00001100#8 = .instr .incC ∧
    decode 0b00010100#8 = .instr .incD ∧
    decode 0b00011100#8 = .instr .incE ∧
    decode 0b00100100#8 = .instr .incH ∧
    decode 0b00101100#8 = .instr .incL ∧
    decode 0b00111100#8 = .instr .incA := by
  decide
theorem test_decode_dec :
    decode 0b00000101#8 = .instr .decB ∧
    decode 0b00001101#8 = .instr .decC ∧
    decode 0b00010101#8 = .instr .decD ∧
    decode 0b00011101#8 = .instr .decE ∧
    decode 0b00100101#8 = .instr .decH ∧
    decode 0b00101101#8 = .instr .decL ∧
    decode 0b00111101#8 = .instr .decA := by
  decide
theorem test_decode_unassigned :
    decode 0b10000110#8 = .unassigned 0x86#8 ∧ decode 0b00110100#8 = .unassigned 0x34#8 ∧
    decode 0b00000000#8 = .unassigned 0x00#8 ∧ decode 0b11000110#8 = .unassigned 0xC6#8 ∧
    decode 0b11001011#8 = .unassigned 0xCB#8 ∧ decode 0b11111111#8 = .unassigned 0xFF#8 := by
  decide
theorem test_table_word_uses_its_bits : decodeTableWord 8 0x180 = some .addB ∧ decodeTableWord 4 0x89 = some .addhlBc := by
  decide

/-! ## ADD (V-ADD) -/

theorem test_add_b_half_without_carry : aAndF (mk 0x0F 0x01 0x55 0x55 0x55 0x55 0x55 0x10) 0x80 = some (0x10, 0x20) := by decide
theorem test_add_b_wraps_to_zero : aAndF (mk 0xF0 0x10 0x55 0x55 0x55 0x55 0x55 0x10) 0x80 = some (0x00, 0x90) := by decide
theorem test_add_c_half_and_carry : aAndF (mk 0x8F 0x55 0x91 0x55 0x55 0x55 0x55 0x10) 0x81 = some (0x20, 0x30) := by decide
theorem test_add_d_sum_256 : aAndF (mk 0x3A 0x55 0x55 0xC6 0x55 0x55 0x55 0x10) 0x82 = some (0x00, 0xB0) := by decide
theorem test_add_e_maximum : aAndF (mk 0xFF 0x55 0x55 0x55 0xFF 0x55 0x55 0x10) 0x83 = some (0xFE, 0x30) := by decide
theorem test_add_h_neither : aAndF (mk 0x12 0x55 0x55 0x55 0x55 0x34 0x55 0x10) 0x84 = some (0x46, 0x00) := by decide
theorem test_add_l_signed_edge : aAndF (mk 0x7F 0x55 0x55 0x55 0x55 0x55 0x01 0x10) 0x85 = some (0x80, 0x20) := by decide
theorem test_add_a_doubles : aAndF (mk 0x88 0x55 0x55 0x55 0x55 0x55 0x55 0x00) 0x87 = some (0x10, 0x30) := by decide
theorem test_add_a_carry_is_bit7 : aAndF (mk 0x80 0x55 0x55 0x55 0x55 0x55 0x55 0x00) 0x87 = some (0x00, 0x90) := by decide

/-! ## ADC (V-ADC) -/

theorem test_adc_b_all_from_carry : aAndF (mk 0xFF 0x00 0x55 0x55 0x55 0x55 0x55 0x10) 0x88 = some (0x00, 0xB0) := by decide
theorem test_adc_c_scenario3 : aAndF (mk 0xF0 0x55 0x11 0x55 0x55 0x55 0x55 0x10) 0x89 = some (0x02, 0x10) := by decide
theorem test_adc_c_maximum : aAndF (mk 0xFF 0x55 0xFF 0x55 0x55 0x55 0x55 0x10) 0x89 = some (0xFF, 0x30) := by decide
theorem test_adc_d_carry_clear_is_add : aAndF (mk 0x7F 0x55 0x55 0x80 0x55 0x55 0x55 0x00) 0x8A = some (0xFF, 0x00) := by decide
theorem test_adc_e_carry_tips : aAndF (mk 0x7F 0x55 0x55 0x55 0x80 0x55 0x55 0x10) 0x8B = some (0x00, 0xB0) := by decide
theorem test_adc_h_half_from_carry : aAndF (mk 0x0E 0x55 0x55 0x55 0x55 0x01 0x55 0x10) 0x8C = some (0x10, 0x20) := by decide
theorem test_adc_l_operand_ff : aAndF (mk 0x00 0x55 0x55 0x55 0x55 0x55 0xFF 0x10) 0x8D = some (0x00, 0xB0) := by decide
theorem test_adc_a_doubles : aAndF (mk 0x80 0x55 0x55 0x55 0x55 0x55 0x55 0x10) 0x8F = some (0x01, 0x10) := by decide
theorem test_adc_a_no_half : aAndF (mk 0x07 0x55 0x55 0x55 0x55 0x55 0x55 0x10) 0x8F = some (0x0F, 0x00) := by decide

/-! ## SUB (V-SUB) -/

theorem test_sub_b_both_borrows : aAndF (mk 0x00 0x01 0x55 0x55 0x55 0x55 0x55 0x00) 0x90 = some (0xFF, 0x70) := by decide
theorem test_sub_c_half_only : aAndF (mk 0x10 0x55 0x01 0x55 0x55 0x55 0x55 0x00) 0x91 = some (0x0F, 0x60) := by decide
theorem test_sub_d_scenario6 : aAndF (mk 0x01 0x55 0x55 0x01 0x55 0x55 0x55 0x00) 0x92 = some (0x00, 0xC0) := by decide
theorem test_sub_e_carry_only : aAndF (mk 0x01 0x55 0x55 0x55 0x10 0x55 0x55 0x00) 0x93 = some (0xF1, 0x50) := by decide
theorem test_sub_h_ignores_carry : aAndF (mk 0x3E 0x55 0x55 0x55 0x55 0x40 0x55 0x10) 0x94 = some (0xFE, 0x50) := by decide
theorem test_sub_l_borrow_ff : aAndF (mk 0x00 0x55 0x55 0x55 0x55 0x55 0xFF 0x00) 0x95 = some (0x01, 0x70) := by decide
theorem test_sub_a_clears : aAndF (mk 0x5A 0x55 0x55 0x55 0x55 0x55 0x55 0xF0) 0x97 = some (0x00, 0xC0) := by decide

/-! ## ADDHL (V-ADDHL) -/

theorem test_addhl_bc_scenario4 : hlAndF (mk 0x55 0x00 0x01 0x55 0x55 0xFF 0xFF 0x10) 0x09 = some (0x0000, 0xB0) := by decide
theorem test_addhl_bc_scenario5 : hlAndF (mk 0x55 0xFF 0x00 0x55 0x55 0xFF 0x00 0x10) 0x09 = some (0xFE00, 0x10) := by decide
theorem test_addhl_de_byte_quirk : hlAndF (mk 0x55 0x55 0x55 0x00 0x10 0x00 0x10 0x10) 0x19 = some (0x0020, 0x20) := by decide
theorem test_addhl_de_sum_65536 : hlAndF (mk 0x55 0x55 0x55 0x80 0x00 0x80 0x00 0x10) 0x19 = some (0x0000, 0x90) := by decide
theorem test_addhl_hl_no_half : hlAndF (mk 0x55 0x55 0x55 0x55 0x55 0x40 0x07 0x00) 0x29 = some (0x800E, 0x00) := by decide
theorem test_addhl_hl_maximum : hlAndF (mk 0x55 0x55 0x55 0x55 0x55 0xFF 0xFF 0x00) 0x29 = some (0xFFFE, 0x30) := by decide

/-! ## Errors (V-FAULT): the status with its info, and the state as it was -/

theorem test_addhl_sp_status : replied (mk 0x0F 0 0 0 0 0 0 0xB0) 0x39 = some (.status (.ambiguousSemantics .addhlSp)) := by
  decide
theorem test_addhl_sp_writes_nothing : after (mk 0x0F 0 0 0 0 0x12 0x34 0xB0) 0x39 = some (mk 0x0F 0 0 0 0 0x12 0x34 0xB0).rf := by
  decide
theorem test_unassigned_status :
    replied (mk 0x0F 0 0 0 0 0 0 0xB0) 0x86 = some (.status (.unsupportedInstruction (.word 0x86))) := by
  decide
theorem test_unassigned_writes_nothing : after (mk 0x0F 0 0 0 0 0 0 0xB0) 0x86 = some (mk 0x0F 0 0 0 0 0 0 0xB0).rf := by
  decide
theorem test_sbc_status : 
    replied (mk 0x0F 1 0 0 0 0 0 0xB0) 0x98 = some (.status (.unsupportedInstruction (.instr .sbcB))) ∧
    replied (mk 0x0F 1 0 0 0 0 0 0xB0) 0x9F = some (.status (.unsupportedInstruction (.instr .sbcA))) := by
  decide
theorem test_sbc_writes_nothing : after (mk 0x0F 1 0 0 0 0 0 0xB0) 0x9F = some (mk 0x0F 1 0 0 0 0 0 0xB0).rf := by
  decide
theorem test_and_status : 
    replied (mk 0x0F 1 0 0 0 0 0 0xB0) 0xA0 = some (.status (.unsupportedInstruction (.instr .andB))) ∧
    replied (mk 0x0F 1 0 0 0 0 0 0xB0) 0xA7 = some (.status (.unsupportedInstruction (.instr .andA))) := by
  decide
theorem test_and_writes_nothing : after (mk 0x0F 1 0 0 0 0 0 0xB0) 0xA7 = some (mk 0x0F 1 0 0 0 0 0 0xB0).rf := by
  decide
theorem test_xor_status : 
    replied (mk 0x0F 1 0 0 0 0 0 0xB0) 0xA8 = some (.status (.unsupportedInstruction (.instr .xorB))) ∧
    replied (mk 0x0F 1 0 0 0 0 0 0xB0) 0xAF = some (.status (.unsupportedInstruction (.instr .xorA))) := by
  decide
theorem test_xor_writes_nothing : after (mk 0x0F 1 0 0 0 0 0 0xB0) 0xAF = some (mk 0x0F 1 0 0 0 0 0 0xB0).rf := by
  decide
theorem test_or_status : 
    replied (mk 0x0F 1 0 0 0 0 0 0xB0) 0xB0 = some (.status (.unsupportedInstruction (.instr .orB))) ∧
    replied (mk 0x0F 1 0 0 0 0 0 0xB0) 0xB7 = some (.status (.unsupportedInstruction (.instr .orA))) := by
  decide
theorem test_or_writes_nothing : after (mk 0x0F 1 0 0 0 0 0 0xB0) 0xB7 = some (mk 0x0F 1 0 0 0 0 0 0xB0).rf := by
  decide
theorem test_cp_status : 
    replied (mk 0x0F 1 0 0 0 0 0 0xB0) 0xB8 = some (.status (.unsupportedInstruction (.instr .cpB))) ∧
    replied (mk 0x0F 1 0 0 0 0 0 0xB0) 0xBF = some (.status (.unsupportedInstruction (.instr .cpA))) := by
  decide
theorem test_cp_writes_nothing : after (mk 0x0F 1 0 0 0 0 0 0xB0) 0xBF = some (mk 0x0F 1 0 0 0 0 0 0xB0).rf := by
  decide
theorem test_inc_status : 
    replied (mk 0x0F 1 0 0 0 0 0 0xB0) 0x04 = some (.status (.unsupportedInstruction (.instr .incB))) ∧
    replied (mk 0x0F 1 0 0 0 0 0 0xB0) 0x3C = some (.status (.unsupportedInstruction (.instr .incA))) := by
  decide
theorem test_inc_writes_nothing : after (mk 0x0F 1 0 0 0 0 0 0xB0) 0x3C = some (mk 0x0F 1 0 0 0 0 0 0xB0).rf := by
  decide
theorem test_dec_status : 
    replied (mk 0x0F 1 0 0 0 0 0 0xB0) 0x05 = some (.status (.unsupportedInstruction (.instr .decB))) ∧
    replied (mk 0x0F 1 0 0 0 0 0 0xB0) 0x3D = some (.status (.unsupportedInstruction (.instr .decA))) := by
  decide
theorem test_dec_writes_nothing : after (mk 0x0F 1 0 0 0 0 0 0xB0) 0x3D = some (mk 0x0F 1 0 0 0 0 0 0xB0).rf := by
  decide

/-- D19: a caller that halts stops with the fault named after the status. -/
theorem test_halting_caller_faults :
    (match step ({ mk 0x0F 0 0 0 0 0 0 0xB0 with onFault := ⟨[], .halt⟩ }.withFetchWord 8 0x39) with
      | .fault f => some f
      | .next _ => none
      | .refused _ => none) = some (.ambiguousSemantics .addhlSp) := by
  decide

/-- D19: a policy may name one status; here UnsupportedInstruction(0x86) halts and every other error is skipped. -/
theorem test_policy_by_status :
    (FaultPolicy.reaction ⟨[(.unsupportedInstruction (.word 0x86), .halt)], .skip⟩ (.unsupportedInstruction (.word 0x86)) = .halt) ∧
    (FaultPolicy.reaction ⟨[(.unsupportedInstruction (.word 0x86), .halt)], .skip⟩ (.ambiguousSemantics .addhlSp) = .skip) := by
  decide

/-- V-FAULT: 0xCB consumes nothing, so the ADD B after it runs. -/
theorem test_prefix_word_then_add :
    (match step (mk 0x0F 0x01 0 0 0 0 0 0xB0 [.executeWord 0xCB, .executeWord 0x80]) with
      | .next t => some (t.pending, t.reply)
      | .fault _ => none
      | .refused _ => none) =
    some ([.executeWord 0x80], .status (.unsupportedInstruction (.word 0xCB))) := by
  decide

/-! ## The flags byte (V-FLAGS), pairs (V-PAIR), Construct (V-RESET), the host port (R39) -/

theorem test_pack : Flags.pack ⟨true, false, true, true⟩ = 0xB0 ∧ Flags.pack ⟨false, true, false, false⟩ = 0x40 := by decide
theorem test_unpack :
    Flags.unpack 0x0F = ⟨false, false, false, false⟩ ∧ Flags.unpack 0x5A = ⟨false, true, false, true⟩ := by
  decide
theorem test_set_pair_bc : (hostAccess (.setPair .bc 0xBEEF) State.reset).rf = ⟨0, 0xBE, 0xEF, 0, 0, 0, 0, Flags.unpack 0⟩ := by
  decide
theorem test_write_l_seen_in_hl : (hostAccess (.writeReg .l 0x99) (mk 0 0 0 0 0 0x12 0x34 0)).rf.pair .hl = 0x1299 := by decide
theorem test_set_af_loses_low_nibble : (hostAccess (.setPair .af 0x12FF) State.reset).rf.pair .af = 0x12F0 := by decide
theorem test_get_af : (hostAccess (.getPair .af) (mk 0x01 0 0 0 0 0 0 0xB0)).reply = .pairValue .af 0x01B0 := by decide
theorem test_construct :
    (match step (mk 0x12 0 0 0 0 0xFF 0xFF 0xF0 [.construct]) with
      | .next t => some t.rf
      | .fault _ => none
      | .refused _ => none) = some RegisterFile.zero := by
  decide
theorem test_wire_register_a : WireAccess.access (.readReg 7#3) = some (.readReg .a) := by decide
theorem test_wire_flag_codes :
    WireAccess.access (.readFlag 3#2) = some (.readFlag .z) ∧ WireAccess.access (.readFlag 0#2) = some (.readFlag .c) := by
  decide
theorem test_wire_pair_code3_is_af : WireAccess.access (.getPair 3#2) = some (.getPair .af) := by decide
theorem test_status_codes :
    Status.ok.code = 0 ∧ (Status.unsupportedInstruction (.word 0)).code = 1 ∧ (Status.ambiguousSemantics .addhlSp).code = 2 := by
  decide
theorem test_queue_program : (State.reset.queueProgram [0x80, 0x89]).pending = [.executeWord 0x80, .executeWord 0x89] := by
  decide

/-! ## Witnesses: each statement's hypotheses can be met -/

/-- ResetRegistersAreZero, both ways of being a Register File after Construct. -/
theorem witness_reset_register_file : State.reset.rf = State.reset.rf ∧ ∃ s : State, RegisterFile.zero = s.construct.rf :=
  ⟨rfl, State.reset, rfl⟩

/-- NoInstructionZeroesTheCore: SBC B at reset ends with every field zero, as it began. -/
theorem witness_zero_core : ∃ t, exec .sbcB State.reset = .next t ∧ t.rf = RegisterFile.zero := ⟨_, rfl, rfl⟩

/-- AddRegisterToA, its example clause. -/
theorem witness_add_example : (mk 0x0F 0x01 0 0 0 0 0 0).rf.a = 0x0F#8 ∧ (mk 0x0F 0x01 0 0 0 0 0 0).rf.b = 0x01#8 := by decide

/-- AddWithCarryToA: the clause for operand 0xFF with A zero, and the example. -/
theorem witness_adc_operand_ff :
    (mk 0 0xFF 0 0 0 0 0 0x10).rf.flags.c = true ∧ (mk 0 0xFF 0 0 0 0 0 0x10).rf.reg8 .b = 0xFF#8 ∧
    (mk 0 0xFF 0 0 0 0 0 0x10).rf.a = 0x00#8 ∧
    ∃ u, exec (Instruction.adc .b).toInstr (mk 0 0xFF 0 0 0 0 0 0x10) = .next u :=
  ⟨by decide, by decide, by decide, _, rfl⟩
theorem witness_adc_carry_clear : State.reset.rf.flags.c = false := by decide
theorem witness_adc_example :
    (mk 0xF0 0 0x11 0 0 0 0 0x10).rf.a = 0xF0#8 ∧ (mk 0xF0 0 0x11 0 0 0 0 0x10).rf.c = 0x11#8 ∧
    (mk 0xF0 0 0x11 0 0 0 0 0x10).rf.flags.c = true := by
  decide

/-- SubtractRegisterFromA: the borrow example and scenario 6. -/
theorem witness_sub_borrow : (mk 0 0x01 0 0 0 0 0 0).rf.a = 0x00#8 ∧ (mk 0 0x01 0 0 0 0 0 0).rf.b = 0x01#8 := by decide
theorem witness_sub_example : (mk 1 0 0 1 0 0 0 0).rf.a = 0x01#8 ∧ (mk 1 0 0 1 0 0 0 0).rf.d = 0x01#8 := by decide

/-- AddPairToHl, its example clause, and a row of its table. -/
theorem witness_addhl_example :
    (mk 0 0 1 0 0 0xFF 0xFF 0).rf.pair .hl = 0xFFFF#16 ∧ (mk 0 0 1 0 0 0xFF 0xFF 0).rf.pair .bc = 0x0001#16 := by
  decide
theorem witness_addhl_row :
    (Instr.addhlHl, (0xFF#8, 0x08#8)) ∈ [(Instr.addhlBc, (0x00#8, 0x01#8)), (Instr.addhlHl, (0xFF#8, 0x08#8))] := by
  decide

/-- ReservedVariantsAreUnsupported, ExecuteIsTheDispatch and StatusTable: a reserved value of each list. -/
theorem witness_reserved_variant :
    Instruction.dec .a ∈ [Instruction.sbc .a, .and .a, .or .a, .xor .a, .cp .a, .inc .a, .dec .a] ∧
    Instruction.sbc .b ∈ [Instruction.sbc .b, .and .b, .or .b, .xor .b, .cp .b, .inc .b, .dec .b] := by
  decide

/-- DestinationAndFlagsFrame: an Ok Execute of each kind, and one that is no ADC from a state with C set. -/
theorem witness_ok_add : ∃ t, exec .addB State.reset = .next t ∧ t.reply = .status .ok ∧ ∀ p, Instr.addB.value ≠ .addhl p :=
  ⟨_, rfl, rfl, by intro p h; cases h⟩
theorem witness_ok_addhl : ∃ t, exec .addhlHl State.reset = .next t ∧ t.reply = .status .ok ∧ ∃ p, Instr.addhlHl.value = .addhl p :=
  ⟨_, rfl, rfl, .hl, rfl⟩
theorem witness_ok_not_adc :
    (mk 1 0 0 0 0 0 0 0x10).rf.flags.c = true ∧ (∀ r, Instr.subA.value ≠ .adc r) ∧
    ∃ t, exec .subA (mk 1 0 0 0 0 0 0 0x10) = .next t ∧ t.reply = .status .ok :=
  ⟨by decide, (by intro r h; cases h), _, rfl, rfl⟩

/-- ExecuteSeesOnlyTheRegisterFile: two states that differ in the caller's fields only. -/
theorem witness_same_register_file :
    (mk 1 2 3 4 5 6 7 0xF0).rf = (mk 1 2 3 4 5 6 7 0xF0 [.construct]).rf ∧
    mk 1 2 3 4 5 6 7 0xF0 ≠ mk 1 2 3 4 5 6 7 0xF0 [.construct] := by
  decide

/-- StatusTable and UnassignedWordsAreUnsupported: an unassigned word, at both ends of the range. -/
theorem witness_unassigned : assignedWord 0x00#8 = false ∧ assignedWord 0xFF#8 = false := by decide

/-- ErrorWritesNothing and SameErrorInEveryState: an erring instruction, an erring word. -/
theorem witness_error_instruction :
    ∃ t, exec .cpL State.reset = .next t ∧ t.reply = .status (.unsupportedInstruction (.instr .cpL)) ∧
      t.reply ≠ .status .ok ∧ Status.unsupportedInstruction (.instr .cpL) ≠ .ok :=
  ⟨_, rfl, rfl, by decide, by decide⟩
theorem witness_error_word :
    ∃ t, executeWord 0xCB#8 State.reset = .next t ∧ t.reply = .status (.unsupportedInstruction (.word 0xCB#8)) ∧
      t.reply ≠ .status .ok ∧ Status.unsupportedInstruction (.word 0xCB#8) ≠ .ok :=
  ⟨_, rfl, rfl, by decide, by decide⟩

/-- CallerReactsAsItsPolicySays: each of the three reactions, to both error kinds, and the Ok reply. -/
theorem witness_reactions :
    (∀ r : OnFault, FaultPolicy.reaction ⟨[], r⟩ (.unsupportedInstruction (.word 0x00)) = r) ∧
    (∀ r : OnFault, FaultPolicy.reaction ⟨[], r⟩ (.ambiguousSemantics .addhlSp) = r) ∧
    Status.ambiguousSemantics .addhlSp ≠ .ok ∧ Status.unsupportedInstruction (.word 0x00) ≠ .ok :=
  ⟨fun _ => rfl, fun _ => rfl, by decide, by decide⟩
theorem witness_reply_ok : (returned State.reset .ok).reply = .status .ok := rfl
theorem witness_listed_status :
    Status.ambiguousSemantics .addhlSp ∈ [Status.ambiguousSemantics .addhlSp] ∧
    Status.unsupportedInstruction (.word 0x00) ∉ [Status.ambiguousSemantics .addhlSp] := by
  decide

/-- CoreGoesOnAfterAnError and PrefixWordConsumesNothing: the caller at reset does not halt. -/
theorem witness_goes_on :
    State.reset.constructed = true ∧ statusOf .addhlSp ≠ .ok ∧ statusOf .incB ≠ .ok ∧
    State.reset.onFault.reaction (statusOf .addhlSp) ≠ .halt ∧ State.reset.onFault.reaction (statusOf .incB) ≠ .halt ∧
    State.reset.onFault.reaction (.unsupportedInstruction (.word 0xCB#8)) ≠ .halt := by
  decide

/-- HostReads, WriteRegisterSetsItAlone, SetPairWritesBothHalves, WriteFlagsUnpacksTheByte, WritesReturnNothing,
StepRunsTheDecodedInstruction. -/
theorem witness_constructed : State.reset.constructed = true := rfl
theorem witness_other_register : ArithmeticTarget.b ≠ ArithmeticTarget.a := by decide
theorem witness_decoded : decode 0x80#8 = .instr .addB ∧ decodeTableWord 8 0x80 = some .addB := by decide

/-- HostPortSelectorCodes: a pair of each table. -/
theorem witness_selector_rows :
    (7#3, ArithmeticTarget.a) ∈ [(0#3, ArithmeticTarget.b), (7#3, .a)] ∧ (3#2, Pair.af) ∈ [(0#2, Pair.bc), (3#2, .af)] ∧
    (3#2, FlagName.z) ∈ [(3#2, FlagName.z), (0#2, .c)] := by
  decide

/-- WritesReturnNothing: a host write of its list, and a wire-level write whose codes select it. -/
theorem witness_host_write :
    HostAccess.writeReg .a 1 ∈ [HostAccess.writeReg .a 1, .setPair .af 2, .writeFlags 3] ∧
    WireAccess.access (.writeReg 7#3 1) = some (.writeReg .a 1) := by
  decide

/-- DisjointHostWritesCommute: a register write and a flags write; two pair writes. -/
theorem witness_disjoint_writes :
    (∀ r ∈ hostWrites (.writeReg .a 1), r ∉ hostWrites (.writeFlags 0xF0)) ∧
    ¬ (hostWritesFlags (.writeReg .a 1) = true ∧ hostWritesFlags (.writeFlags 0xF0) = true) ∧
    (∀ r ∈ hostWrites (.setPair .bc 1), r ∉ hostWrites (.setPair .af 2)) ∧
    ¬ (hostWritesFlags (.setPair .bc 1) = true ∧ hostWritesFlags (.setPair .af 2) = true) := by
  decide

/-- StepTakesTheOldestTransaction, OnlyNamedTransactionsWrite, StepStopsExactlyWhen: an empty and a filled queue. -/
theorem witness_empty_queue : State.reset.pending = [] := rfl
theorem witness_filled_queue :
    (mk 0 0 0 0 0 0 0 0 [.host .readFlags]).pending = [.host .readFlags] ∧
    ∃ t, step (mk 0 0 0 0 0 0 0 0 [.host .readFlags]) = .next t ∧ mayWriteFlags (.host .readFlags) = false ∧
      ArithmeticTarget.a ∉ mayWrite (.host .readFlags) :=
  ⟨rfl, _, rfl, rfl, by decide⟩

/-- StepStopsExactlyWhen: each way of stopping happens. -/
theorem witness_stop_unconstructed :
    step { mk 0 0 0 0 0 0 0 0 [.executeWord 0x80] with constructed := false } = .fault .notConstructed := rfl
theorem witness_stop_halting :
    step { mk 0 0 0 0 0 0 0 0 [.executeWord 0x98] with onFault := ⟨[], .halt⟩ } =
      .fault (.unsupportedInstruction (.instr .sbcB)) := rfl
theorem witness_stop_code6 : step (mk 0 0 0 0 0 0 0 0 [.wire (.readReg 6#3)]) = .refused .registerCode6 := rfl

/-- UnconstructedInstanceIsStuck: an instance never constructed, and both kinds of transaction. -/
theorem witness_unconstructed :
    { State.reset with constructed := false }.constructed = false ∧ Transaction.host .readFlags ≠ .construct := by
  decide

/-- EveryStepKeepsTheInvariant: a state with an error logged meets it, and a step from it goes on. -/
theorem witness_invariant :
    CoreInvariant { mk 1 2 3 4 5 6 7 0xF0 [.executeWord 0x80] with log := [.ambiguousSemantics .addhlSp] } ∧
    ∃ t, step { mk 1 2 3 4 5 6 7 0xF0 [.executeWord 0x80] with log := [.ambiguousSemantics .addhlSp] } = .next t :=
  ⟨⟨rfl, rfl, by decide⟩, _, rfl⟩

/-- CleanTransactionsNeverErr: a queue of every kind of clean transaction. -/
theorem witness_clean_queue :
    State.reset.constructed = true ∧ errorReply State.reset.reply = false ∧
    ∀ tr ∈ [Transaction.construct, .execute .adcA, .executeWord 0x29#8, .host (.writeFlags 0xFF), .wire (.readReg 7#3)],
      cleanTransaction tr = true := by
  decide

end Sys2Proof.Tests
end

section
/-! PROOFS. The rules of the state family and the proofs of its statements: the flags byte and its conversions (10_state.md
R24, R25), the pair view (R26 to R28), the host's accesses as steps (R31 to R36) and the state after Construct (R44). -/

namespace Sys2Proof.Machine

/-! ## The flags byte, there and back -/

section FlagsByte

variable (f : Flags) (b : Byte) (x : Word)

@[simp] theorem Flags.unpack_pack : Flags.unpack f.pack = f := by
  simp only [Flags.unpack, Flags.pack, BitVec.getLsbD_append]
  simp

/-- The low nibble, which unpack ignores, is what packing again loses (R25). -/
@[simp] theorem Flags.pack_unpack : (Flags.unpack b).pack = b &&& 0xF0#8 := by
  revert b
  decide

/-- Unpacking the low half of a pair's value reads the value's own bits 7 to 4 (R27). -/
theorem Flags.unpack_lowHalf :
    Flags.unpack (lowHalf x) = ⟨x.getLsbD 7, x.getLsbD 6, x.getLsbD 5, x.getLsbD 4⟩ := by
  simp [Flags.unpack, lowHalf]

end FlagsByte

/-! ## Pairs -/

section Pairs

variable (rf : RegisterFile) (x : Word)

theorem highHalf_eq_ofNat : highHalf x = BitVec.ofNat 8 (x.toNat / 256) := by
  apply BitVec.eq_of_toNat_eq
  simp [highHalf, Nat.shiftRight_eq_div_pow]

theorem lowHalf_eq_ofNat : lowHalf x = BitVec.ofNat 8 (x.toNat % 256) := by
  apply BitVec.eq_of_toNat_eq
  simp [lowHalf]

/-- Masking a pair's value masks each half. -/
theorem joinBytes_and_joinBytes (a b c d : Byte) :
    joinBytes a b &&& joinBytes c d = joinBytes (a &&& c) (b &&& d) :=
  BitVec.and_append

/-- Every pair with storage of its own reads back what was written (R27). -/
theorem RegisterFile.pair_setPair_of_ne_af {p : Pair} (h : p ≠ .af) : (rf.setPair p x).pair p = x := by
  cases p with
  | af => exact absurd rfl h
  | _ => exact joinBytes_halves x

/-- AF reads back without the low nibble, which the flags byte does not store (R25, R27). -/
theorem RegisterFile.pair_setPair_af : (rf.setPair .af x).pair .af = x &&& 0xFFF0#16 :=
  calc joinBytes (highHalf x) (Flags.unpack (lowHalf x)).pack
      = joinBytes (highHalf x &&& 0xFF#8) (lowHalf x &&& 0xF0#8) := by
        rw [Flags.pack_unpack, show (0xFF#8 : Byte) = BitVec.allOnes 8 from rfl, BitVec.and_allOnes]
    _ = joinBytes (highHalf x) (lowHalf x) &&& joinBytes 0xFF#8 0xF0#8 := (joinBytes_and_joinBytes ..).symm
    _ = x &&& 0xFFF0#16 := by rw [joinBytes_halves]; rfl

end Pairs

/-! ## A host access as a step -/

theorem whenConstructed_of_constructed {s : State} (h : s.constructed = true)
    (o : Host.Outcome State Fault Refusal) : whenConstructed s o = o :=
  if_pos h

/-- On a constructed CORE a host access never fails: its step takes it from the queue and answers (R31 to R37). -/
theorem step_host {s : State} (hc : s.constructed = true) (q : HostAccess) (rest : List Transaction) :
    step { s with pending := .host q :: rest } = .next (hostAccess q { s with pending := rest }) :=
  calc step { s with pending := .host q :: rest }
      = transact (.host q) { s with pending := rest } := step_cons rfl
    _ = .next (hostAccess q { s with pending := rest }) := whenConstructed_of_constructed hc _

/-- Whatever the access, its step writes the Register File that `hostAccess` says, takes the access from the queue, and keeps
the CORE constructed and the caller's policy and log (log entries 1 to 3). -/
theorem exists_step_host {s : State} (hc : s.constructed = true) (q : HostAccess) (rest : List Transaction) :
    ∃ t : State, step { s with pending := .host q :: rest } = .next t ∧
      t.rf = (hostAccess q s).rf ∧ t.constructed = true ∧ t.pending = rest ∧ t.onFault = s.onFault ∧ t.log = s.log := by
  obtain ⟨hcon, hpend, hpol, hlog⟩ := hostAccess_caller q { s with pending := rest }
  refine ⟨_, step_host hc q rest, ?_, hcon.trans hc, hpend, hpol, hlog⟩
  cases q <;> rfl

/-! ## The statements of the family -/

/-- Settles O37: the step stores `setReg8`, whose read-back laws are those of the Register File. -/
theorem writeRegisterSetsItAlone : Obligations.WriteRegisterSetsItAlone := by
  intro s rest r v hc
  obtain ⟨t, hstep, hrf, hcaller⟩ := exists_step_host hc (.writeReg r v) rest
  have hset : t.rf = s.rf.setReg8 r v := hrf
  refine ⟨t, hstep, ?_, fun q hq => ?_, ?_, hcaller⟩
  · rw [hset, RegisterFile.reg8_setReg8_self]
  · rw [hset, RegisterFile.reg8_setReg8_of_ne _ _ hq]
  · rw [hset, RegisterFile.flags_setReg8]

/-- Settles O1: reset and Construct both give the Register File `RegisterFile.zero` (R44). -/
theorem resetRegistersAreZero : Obligations.ResetRegistersAreZero := by
  intro rf hrf
  have hzero : rf = .zero := by
    obtain rfl | ⟨s, rfl⟩ := hrf
    · rfl
    · exact State.construct_rf s
  subst hzero
  decide

/-- Settles O31: the flags are the bits unpack reads, and unpacking what was packed gives them back. -/
theorem packLayout : Obligations.PackLayout := by
  intro f
  have hbits : Flags.unpack f.pack = f := f.unpack_pack
  exact ⟨congrArg Flags.z hbits, congrArg Flags.n hbits, congrArg Flags.h hbits, congrArg Flags.c hbits,
    f.pack_low_nibble⟩

/-- Settles O32: unpack is its four bits by definition, and the two round trips are laws of the flags byte. -/
theorem packUnpackRoundTrip : Obligations.PackUnpackRoundTrip :=
  ⟨fun _ => rfl, Flags.unpack_pack, Flags.pack_unpack⟩

/-- Settles O34: the halves as numbers, and the read-back laws of the pairs. -/
theorem pairWriteThenRead : Obligations.PairWriteThenRead := by
  intro rf v hi lo
  have hhi : highHalf v = hi := highHalf_eq_ofNat v
  have hlo : lowHalf v = lo := lowHalf_eq_ofNat v
  refine ⟨?_, ?_, ?_, ?_, rf.pair_setPair_of_ne_af v nofun, rf.pair_setPair_of_ne_af v nofun,
    rf.pair_setPair_of_ne_af v nofun, rf.pair_setPair_af v⟩
  all_goals
    simp only [RegisterFile.setPair, hhi, hlo]

/-- Settles O38: the step stores `setPair`, which O34's clauses write out for each pair. -/
theorem setPairWritesBothHalves : Obligations.SetPairWritesBothHalves := by
  intro s rest v hc hi lo pr hpr
  obtain ⟨t, hstep, hrf, hcaller⟩ := exists_step_host hc (.setPair pr.1 v) rest
  refine ⟨t, hstep, hrf.trans ?_, hcaller⟩
  obtain ⟨hbc, hde, hhl, haf, -⟩ := pairWriteThenRead s.rf v
  have hflags : Flags.unpack lo = ⟨v.getLsbD 7, v.getLsbD 6, v.getLsbD 5, v.getLsbD 4⟩ := by
    rw [← Flags.unpack_lowHalf, lowHalf_eq_ofNat]
  simp only [List.mem_cons, List.not_mem_nil, or_false] at hpr
  obtain rfl | rfl | rfl | rfl := hpr
  · exact hbc
  · exact hde
  · exact hhl
  · exact hflags ▸ haf

/-- Settles O36: each read is one host step whose access answers the value named (R38). -/
theorem hostReads : Obligations.HostReads := by
  intro s rest hc
  refine ⟨fun rv hrv => ?_, fun p => step_host hc (.getPair p) rest, step_host hc .readFlags rest,
    Flags.pack_low_nibble _, fun fv hfv => ?_⟩
  · have hreg : s.rf.reg8 rv.1 = rv.2 := by
      simp only [List.mem_cons, List.not_mem_nil, or_false] at hrv
      obtain rfl | rfl | rfl | rfl | rfl | rfl | rfl := hrv <;> rfl
    rw [step_host hc, ← hreg]
    rfl
  · have hflag : s.rf.flags.get fv.1 = fv.2 := by
      simp only [List.mem_cons, List.not_mem_nil, or_false] at hfv
      obtain rfl | rfl | rfl | rfl := hfv <;> rfl
    rw [step_host hc, ← hflag]
    rfl

end Sys2Proof.Machine
end

section
/-! PROOFS. The dispatch family: which shared operation an Execute is, by its Instruction value (40_dispatch.md R102), the
results of the operations as machine arithmetic, and the self-source cases (R105). -/

namespace Sys2Proof.Machine

/-! ## The results of the primitives as modular arithmetic -/

section Results

variable (f : Flags) (x y : Byte) (u : Bool) (p q : Word)

theorem add8_value_eq_add : (add8 f x y u).value = x + y + BitVec.ofNat 8 (carryIn f u) := by
  simp only [add8_value, BitVec.ofNat_add, BitVec.ofNat_toNat, BitVec.setWidth_eq]

theorem sub8_value_eq_sub : (sub8 x y).value = x - y := by
  simp only [sub8_value, Int.sub_eq_add_neg, BitVec.ofInt_add, BitVec.ofInt_neg, BitVec.ofInt_natCast,
    BitVec.ofNat_toNat, BitVec.setWidth_eq, BitVec.sub_eq_add_neg]

theorem add16_value_eq_add : (add16 p q).value = p + q := by
  simp only [add16_value, BitVec.ofNat_add, BitVec.ofNat_toNat, BitVec.setWidth_eq]

/-- ADC's carry-in is the carry flag as a byte (R120). -/
theorem ofNat_carryIn_true : BitVec.ofNat 8 (carryIn f true) = if f.c then 1#8 else 0#8 := by
  obtain ⟨z, n, h, c⟩ := f
  cases c <;> rfl

end Results

/-! ## What each shared operation leaves in its destination -/

section Destinations

variable (r : ArithmeticTarget) (s : State)

theorem exists_addToA (u : Bool) : ∃ t : State, addToA r u s = .next t ∧
    t.rf.a = s.rf.a + s.rf.reg8 r + BitVec.ofNat 8 (carryIn s.rf.flags u) :=
  ⟨_, rfl, add8_value_eq_add ..⟩

theorem exists_subFromA : ∃ t : State, subFromA r s = .next t ∧ t.rf.a = s.rf.a - s.rf.reg8 r :=
  ⟨_, rfl, sub8_value_eq_sub ..⟩

/-- HL reads back the sum: it has storage of its own, and the flags written with it are no part of it (R27). -/
theorem exists_addToHl (p : Pair) : ∃ t : State, addToHl p s = .next t ∧
    t.rf.pair .hl = s.rf.pair .hl + s.rf.pair p :=
  ⟨_, rfl, (s.rf.pair_setPair_of_ne_af (p := .hl) _ nofun).trans (add16_value_eq_add ..)⟩

end Destinations

/-! ## Execute by the Instruction value -/

section Dispatch

variable (r : ArithmeticTarget) (s : State)

theorem exec_toInstr_add : exec (Instruction.add r).toInstr s = addToA r false s := by
  cases r <;> rfl

theorem exec_toInstr_adc : exec (Instruction.adc r).toInstr s = addToA r true s := by
  cases r <;> rfl

theorem exec_toInstr_sub : exec (Instruction.sub r).toInstr s = subFromA r s := by
  cases r <;> rfl

theorem exec_addhlHl : exec .addhlHl s = addToHl .hl s := rfl

end Dispatch

/-! ## The statement of the family -/

/-- Settles O17: each result is in terms of the registers and the carry of the state before, whatever the source; here the
source is the destination. -/
theorem sourceIsReadBeforeWriting : Obligations.SourceIsReadBeforeWriting := by
  intro s
  obtain ⟨t, hadd, ht⟩ := exists_addToA .a s false
  obtain ⟨u, hadc, hu⟩ := exists_addToA .a s true
  obtain ⟨v, hsub, hv⟩ := exists_subFromA .a s
  obtain ⟨w, haddhl, hw⟩ := exists_addToHl s .hl
  rw [carryIn_false, BitVec.add_zero] at ht
  rw [ofNat_carryIn_true] at hu
  exact ⟨t, u, v, w, (exec_toInstr_add .a s).trans hadd, ht, (exec_toInstr_adc .a s).trans hadc, hu,
    (exec_toInstr_sub .a s).trans hsub, hv, (exec_addhlHl s).trans haddhl, hw⟩

end Sys2Proof.Machine
end

section
/-! PROOFS. The 8-bit ALU family (41_alu8.md): the primitives' results as numbers and their zero law (R120, R121, R125), then
what ADD and ADC do to a state, with the doubling of A and the part the old carry plays (R122, R123). -/

namespace Sys2Proof.Machine

open Sys2Proof.Safety

/-! ## The primitives: result and zero flag -/

section Primitives

variable (f : Flags) (x y : Byte) (u : Bool) (p q : Word)

theorem add8_value_toNat : (add8 f x y u).value.toNat = (x.toNat + y.toNat + carryIn f u) % 256 :=
  BitVec.toNat_ofNat ..

/-- The difference wraps: below zero, 256 is borrowed (R121). -/
theorem sub8_value_toNat : (sub8 x y).value.toNat = (256 + x.toNat - y.toNat) % 256 := by
  have hy := y.isLt
  rw [sub8_value_eq_sub, BitVec.toNat_sub]
  omega

/-! The zero law (R125): each primitive tests its truncated result. -/

theorem add8_flags_z : (add8 f x y u).flags.z = true ↔ (add8 f x y u).value = 0#8 := beq_iff_eq
theorem sub8_flags_z : (sub8 x y).flags.z = true ↔ (sub8 x y).value = 0#8 := beq_iff_eq
theorem add16_flags_z : (add16 p q).flags.z = true ↔ (add16 p q).value = 0#16 := beq_iff_eq

theorem add8_flags_z_iff_mod :
    (add8 f x y u).flags.z = true ↔ (x.toNat + y.toNat + carryIn f u) % 256 = 0 := by
  rw [add8_flags_z, ← add8_value_toNat, ← BitVec.toNat_inj, BitVec.toNat_zero]

theorem add8_flags_z_eq_decide :
    (add8 f x y u).flags.z = decide ((x.toNat + y.toNat + carryIn f u) % 256 = 0) := by
  rw [Bool.eq_iff_iff, decide_eq_true_iff, add8_flags_z_iff_mod]

theorem add8_flags_h_iff :
    (add8 f x y u).flags.h = true ↔ x.toNat % 16 + y.toNat % 16 + carryIn f u > 0xF := by
  rw [add8_flags_h, decide_eq_true_iff]

theorem add8_flags_c_iff : (add8 f x y u).flags.c = true ↔ x.toNat + y.toNat + carryIn f u > 255 := by
  rw [add8_flags_c, decide_eq_true_iff]

/-- The carry-in is the old C where it is used, and 0 where it is not (R120). -/
theorem carryIn_eq_ite : carryIn f u = if u = true ∧ f.c = true then 1 else 0 := by
  obtain ⟨z, n, h, c⟩ := f
  cases u <;> cases c <;> rfl

theorem carryIn_true : carryIn f true = if f.c then 1 else 0 := by
  rw [carryIn_eq_ite]
  simp only [true_and]

/-- With C clear, using it and not using it are the same add (R123). -/
theorem add8_true_of_carry_clear {f : Flags} (hc : f.c = false) : add8 f x y true = add8 f x y false := by
  have hcin : carryIn f true = carryIn f false := by rw [carryIn_true, carryIn_false, hc]; rfl
  simp only [add8, hcin]

/-- Operand 0xFF and a set carry add 256, which always overflows (R123). -/
theorem add8_ff_with_carry_flags_c {f : Flags} (hc : f.c = true) : (add8 f x 0xFF#8 true).flags.c = true := by
  rw [add8_flags_c_iff, carryIn_true, hc]
  exact Nat.lt_add_left x.toNat (Nat.lt_succ_self 255)

/-- The same with A zero: the result is 0 again, and both nibbles overflow (R123). -/
theorem add8_zero_ff_with_carry {f : Flags} (hc : f.c = true) :
    add8 f 0x00#8 0xFF#8 true = ⟨0x00#8, ⟨true, false, true, true⟩⟩ := by
  have hcin : carryIn f true = 1 := by rw [carryIn_true, hc]; rfl
  simp only [add8, hcin]
  decide

/-- Half-carry and carry are independent: the low nibbles and the high nibbles overflow or not, each alone (R120). -/
theorem exists_add8_flags_h_c (half carry : Bool) : ∃ (f : Flags) (x y : Byte) (u : Bool),
    (add8 f x y u).flags.h = half ∧ (add8 f x y u).flags.c = carry := by
  refine ⟨⟨false, false, false, false⟩, (if carry then 0xF0#8 else 0x00#8) ||| (if half then 0x0F#8 else 0x00#8),
    0x11#8, false, ?_⟩
  revert half carry
  decide

end Primitives

/-! ## Doubling -/

/-- Doubling the low `i + 1` bits of `x`, with or without a carry-in, overflows them exactly where bit `i` is set: the reason
ADD A and ADC A have H = A[3] and C = A[7]. -/
theorem getLsbD_eq_decide_double_overflows {w : Nat} (x : BitVec w) (i : Nat) {c : Nat} (hc : c ≤ 1) :
    x.getLsbD i = decide (x.toNat % 2 ^ (i + 1) + x.toNat % 2 ^ (i + 1) + c > 2 ^ (i + 1) - 1) := by
  have hlt : x.toNat % 2 ^ (i + 1) < 2 ^ (i + 1) := Nat.mod_lt _ (Nat.two_pow_pos _)
  rw [← BitVec.testBit_toNat, Nat.testBit_eq_decide_div_mod_eq, decide_eq_decide, ← Nat.mod_mul_right_div_self,
    ← Nat.pow_succ, Nat.div_eq_iff (Nat.two_pow_pos i)]
  rw [Nat.pow_succ] at hlt ⊢
  omega

/-! ## ADD and ADC on a state -/

section AddToA

variable (r : ArithmeticTarget) (s : State) (u : Bool)

/-- What ADD and ADC answer, written out (R122, R123): the result and the flags are those of the exact sum. -/
theorem addToA_eq : addToA r u s =
    .next (aluA s (BitVec.ofNat 8 (s.rf.a.toNat + (s.rf.reg8 r).toNat + carryIn s.rf.flags u))
      (decide ((s.rf.a.toNat + (s.rf.reg8 r).toNat + carryIn s.rf.flags u) % 256 = 0)) false
      (decide (s.rf.a.toNat % 16 + (s.rf.reg8 r).toNat % 16 + carryIn s.rf.flags u > 0xF))
      (decide (s.rf.a.toNat + (s.rf.reg8 r).toNat + carryIn s.rf.flags u > 255))) := by
  rw [← add8_flags_z_eq_decide]
  rfl

/-- With A for the source, the sum is 2A and the carries out of bits 3 and 7 are those bits of A (R122, R123). -/
theorem addToA_self : addToA .a u s =
    .next (aluA s (BitVec.ofNat 8 (2 * s.rf.a.toNat + carryIn s.rf.flags u))
      (decide ((2 * s.rf.a.toNat + carryIn s.rf.flags u) % 256 = 0)) false
      (s.rf.a.getLsbD 3) (s.rf.a.getLsbD 7)) := by
  have hcin := carryIn_le_one s.rf.flags u
  rw [getLsbD_eq_decide_double_overflows s.rf.a 3 hcin, getLsbD_eq_decide_double_overflows s.rf.a 7 hcin,
    Nat.mod_eq_of_lt s.rf.a.isLt, Nat.two_mul]
  exact addToA_eq .a s u

theorem RegisterFile.reg8_with_flags (rf : RegisterFile) (f : Flags) :
    ({ rf with flags := f } : RegisterFile).reg8 r = rf.reg8 r := by
  cases r <;> rfl

/-- ADD reads no flag: whatever they were, it leaves the same state (R122). -/
theorem addToA_false_with_flags (f : Flags) :
    addToA r false { s with rf := { s.rf with flags := f } } = addToA r false s := by
  rw [addToA_eq, addToA_eq, RegisterFile.reg8_with_flags]
  rfl

/-- With C clear, ADC is ADD (R123). -/
theorem addToA_true_of_carry_clear (hc : s.rf.flags.c = false) : addToA r true s = addToA r false s := by
  simp only [addToA, add8_true_of_carry_clear _ _ hc]

/-- R122's result and flags: with no carry-in the sum is below 512, and so 0 modulo 256 only at 0 and 256. -/
theorem exec_add_eq :
    let sum := s.rf.a.toNat + (s.rf.reg8 r).toNat
    exec (Instruction.add r).toInstr s =
      .next (aluA s (BitVec.ofNat 8 sum) (decide (sum = 0 ∨ sum = 256)) false
        (decide (s.rf.a.toNat % 16 + (s.rf.reg8 r).toNat % 16 > 0xF)) (decide (sum > 255))) := by
  intro sum
  have hlt : sum < 256 + 256 := Nat.add_lt_add s.rf.a.isLt (s.rf.reg8 r).isLt
  have hzero : (sum = 0 ∨ sum = 256) ↔ sum % 256 = 0 := by omega
  rw [exec_toInstr_add, addToA_eq, carryIn_false, decide_eq_decide.mpr hzero]
  rfl

/-- R123's result and flags: the carry-in is the old carry. -/
theorem exec_adc_eq :
    let cin := if s.rf.flags.c then 1 else 0
    let sum := s.rf.a.toNat + (s.rf.reg8 r).toNat + cin
    exec (Instruction.adc r).toInstr s =
      .next (aluA s (BitVec.ofNat 8 sum) (decide (sum % 256 = 0)) false
        (decide (s.rf.a.toNat % 16 + (s.rf.reg8 r).toNat % 16 + cin > 0xF)) (decide (sum > 255))) := by
  intro cin sum
  rw [exec_toInstr_adc, addToA_eq, carryIn_true]

end AddToA

/-! ## The statements of the family -/

/-- Settles O4: the laws of add8 with its carry-in written out, and the independence of half-carry and carry. -/
theorem add8ResultAndFlags : Obligations.Add8ResultAndFlags := by
  refine ⟨fun f x y u => ?_, exists_add8_flags_h_c⟩
  rw [← carryIn_eq_ite]
  exact ⟨add8_value_toNat .., add8_flags_z_iff_mod .., add8_flags_n .., add8_flags_h_iff .., add8_flags_c_iff ..⟩

/-- Settles O6: the same laws at the two carry-ins, the old C and 0, then sub8 and the zero law of each primitive. -/
theorem eightBitFamilyLaws : Obligations.EightBitFamilyLaws := by
  refine ⟨fun f x y => ?_, fun x y => ⟨sub8_value_toNat .., ?_⟩, add8_flags_z, sub8_flags_z, add16_flags_z⟩
  · exact ⟨add8_value_toNat .., add8_flags_c_iff .., add8_flags_h_iff ..,
      add8_value_toNat .., add8_flags_c_iff .., add8_flags_h_iff ..⟩
  · rw [sub8_flags_c, decide_eq_true_iff]

/-- Settles O10: the general law, its doubling case, the flags ADD does not read, the words and the rule's example. -/
theorem addRegisterToA : Obligations.AddRegisterToA := by
  refine ⟨exec_add_eq, addToA_self (u := false), fun r s carry => ?_, by decide, fun s ha hb => ?_⟩
  · refine ⟨_, (exec_toInstr_add r s).trans rfl, ?_⟩
    rw [exec_toInstr_add, addToA_false_with_flags]
    rfl
  · have h := exec_add_eq .b s
    simp only [RegisterFile.reg8, ha, hb] at h
    exact h

/-- Settles O11: the general law, its doubling case, the operand 0xFF with carry, the carry clear, the words and the rule's
example. -/
theorem addWithCarryToA : Obligations.AddWithCarryToA := by
  refine ⟨exec_adc_eq, fun s => ?_, fun r s t hc hr ht => ?_, fun r s hc => ?_, by decide, fun s ha hb hc => ?_⟩
  · rw [← carryIn_true]
    exact addToA_self s true
  · obtain rfl := addToA_next ((exec_toInstr_adc r s).symm.trans ht)
    rw [hr]
    refine ⟨add8_ff_with_carry_flags_c _ hc, fun ha => ?_⟩
    rw [ha, add8_zero_ff_with_carry hc]
    exact ⟨rfl, rfl, rfl⟩
  · rw [exec_toInstr_adc, exec_toInstr_add, addToA_true_of_carry_clear _ _ hc]
  · have h := exec_adc_eq .c s
    simp only [RegisterFile.reg8, ha, hb, hc] at h
    exact h

end Sys2Proof.Machine
end

section
/-! PROOFS. The 16-bit ALU family (42_alu16.md): add16's result and flags as numbers (R140, R142), then what ADDHL does to a
state, with the doubling of HL (R141). -/

namespace Sys2Proof.Machine

open Sys2Proof.Safety

/-! ## A pair's value by its bytes -/

theorem joinBytes_toNat_mod (x y : Byte) : (joinBytes x y).toNat % 256 = y.toNat := by
  rw [joinBytes_toNat, Nat.mul_add_mod, Nat.mod_eq_of_lt y.isLt]

/-- The top bit of a pair is the top bit of its high byte (R26). -/
theorem joinBytes_getLsbD_15 (x y : Byte) : (joinBytes x y).getLsbD 15 = x.getLsbD 7 :=
  BitVec.getLsbD_append

/-! ## add16: result and flags -/

section Add16

variable (x y : Word)

theorem add16_value_toNat : (add16 x y).value.toNat = (x.toNat + y.toNat) % 65536 :=
  BitVec.toNat_ofNat ..

theorem highHalf_add16_value :
    highHalf (add16 x y).value = BitVec.ofNat 8 ((x.toNat + y.toNat) % 65536 / 256) := by
  rw [highHalf_eq_ofNat, add16_value_toNat]

theorem lowHalf_add16_value : lowHalf (add16 x y).value = BitVec.ofNat 8 ((x.toNat + y.toNat) % 256) := by
  rw [lowHalf_eq_ofNat, add16_value_toNat, Nat.mod_mod_of_dvd _ (by decide)]

theorem add16_flags_z_iff_mod : (add16 x y).flags.z = true ↔ (x.toNat + y.toNat) % 65536 = 0 := by
  rw [add16_flags_z, ← add16_value_toNat, ← BitVec.toNat_inj, BitVec.toNat_zero]

theorem add16_flags_z_eq_decide : (add16 x y).flags.z = decide ((x.toNat + y.toNat) % 65536 = 0) := by
  rw [Bool.eq_iff_iff, decide_eq_true_iff, add16_flags_z_iff_mod]

theorem add16_flags_h_iff : (add16 x y).flags.h = true ↔ x.toNat % 256 + y.toNat % 256 > 0xF := by
  rw [add16_flags_h, decide_eq_true_iff]

theorem add16_flags_c_iff : (add16 x y).flags.c = true ↔ x.toNat + y.toNat > 65535 := by
  rw [add16_flags_c, decide_eq_true_iff]

/-- Half-carry is a test on the low bytes alone: no high byte appears in it (R140, D9). -/
theorem add16_joinBytes_flags_h (hi lo hi' lo' : Byte) :
    (add16 (joinBytes hi lo) (joinBytes hi' lo')).flags.h = decide (lo.toNat + lo'.toNat > 0xF) := by
  rw [add16_flags_h, joinBytes_toNat_mod, joinBytes_toNat_mod]

end Add16

/-! ## ADDHL on a state -/

section AddToHl

variable (s : State)

theorem exec_addhlBc : exec .addhlBc s = addToHl .bc s := rfl

theorem exec_addhlDe : exec .addhlDe s = addToHl .de s := rfl

/-- What ADDHL answers, written out: the halves and the flags are those of the exact sum (R141). -/
theorem addToHl_eq (p : Pair) :
    let sum := (s.rf.pair .hl).toNat + (s.rf.pair p).toNat
    addToHl p s =
      .next (aluHl s (BitVec.ofNat 8 (sum % 65536 / 256)) (BitVec.ofNat 8 (sum % 256)) (decide (sum % 65536 = 0)) false
        (decide ((s.rf.pair .hl).toNat % 256 + (s.rf.pair p).toNat % 256 > 0xF)) (decide (sum > 65535))) := by
  intro sum
  rw [← highHalf_add16_value, ← lowHalf_add16_value, ← add16_flags_z_eq_decide]
  rfl

/-- The same by bytes, for the pair that holds `hi` and `lo` (R141). -/
theorem addToHl_of_pair_eq {p : Pair} {hi lo : Byte} (hp : s.rf.pair p = joinBytes hi lo) :
    let hl := 256 * s.rf.h.toNat + s.rf.l.toNat
    let v := 256 * hi.toNat + lo.toNat
    addToHl p s =
      .next (aluHl s (BitVec.ofNat 8 ((hl + v) % 65536 / 256)) (BitVec.ofNat 8 ((hl + v) % 256))
        (decide ((hl + v) % 65536 = 0)) false (decide (s.rf.l.toNat + lo.toNat > 0xF)) (decide (hl + v > 65535))) := by
  have hhl : s.rf.pair .hl = joinBytes s.rf.h s.rf.l := rfl
  rw [addToHl_eq, hp, hhl, joinBytes_toNat_mod, joinBytes_toNat_mod, joinBytes_toNat, joinBytes_toNat]

/-- With HL for the source, the sum is 2HL: its carry out of bit 15 is that bit, and the low bytes pass 0xF from L = 8 on
(R141). -/
theorem addToHl_self :
    let hl := 256 * s.rf.h.toNat + s.rf.l.toNat
    addToHl .hl s =
      .next (aluHl s (BitVec.ofNat 8 (2 * hl % 65536 / 256)) (BitVec.ofNat 8 (2 * hl % 256))
        (decide (2 * hl % 65536 = 0)) false (decide (s.rf.l.toNat ≥ 8)) (s.rf.h.getLsbD 7)) := by
  intro hl
  have hcarry : s.rf.h.getLsbD 7 = decide (hl + hl > 65535) := by
    rw [← joinBytes_getLsbD_15 s.rf.h s.rf.l, getLsbD_eq_decide_double_overflows _ 15 (Nat.zero_le 1),
      Nat.mod_eq_of_lt (joinBytes s.rf.h s.rf.l).isLt, joinBytes_toNat]
    rfl
  have hhalf : s.rf.l.toNat ≥ 8 ↔ s.rf.l.toNat + s.rf.l.toNat > 0xF := by omega
  rw [hcarry, decide_eq_decide.mpr hhalf, Nat.two_mul]
  exact addToHl_of_pair_eq s rfl

end AddToHl

/-! ## The statements of the family -/

/-- Settles O7: the laws of add16 as numbers; the half-carry of joined bytes names their low bytes only. -/
theorem add16ResultAndFlags : Obligations.Add16ResultAndFlags := by
  refine ⟨fun x y => ?_, fun hi hi' hj hj' lo lo' => ?_, by decide⟩
  · exact ⟨add16_value_toNat .., add16_flags_z_iff_mod .., add16_flags_n .., add16_flags_h_iff .., add16_flags_c_iff ..⟩
  · rw [add16_joinBytes_flags_h, add16_joinBytes_flags_h]

/-- Settles O8: the sum as machine arithmetic with its carry and the zero law, then scenario 5 by evaluation. -/
theorem add16Scenario5 : Obligations.Add16Scenario5 :=
  ⟨fun x y => ⟨add16_value_eq_add x y, add16_flags_c_iff x y, add16_flags_z x y⟩,
    by decide, by decide, by decide, by decide⟩

/-- Settles O13: the general law at each of the three pairs, its doubling case, the words and the rule's example. -/
theorem addPairToHl : Obligations.AddPairToHl := by
  refine ⟨fun s row hrow => ?_, addToHl_self, by decide, fun s hhl hbc => ?_⟩
  · simp only [List.mem_cons, List.not_mem_nil, or_false] at hrow
    obtain rfl | rfl | rfl := hrow
    · exact (exec_addhlBc s).trans (addToHl_of_pair_eq s rfl)
    · exact (exec_addhlDe s).trans (addToHl_of_pair_eq s rfl)
    · exact (exec_addhlHl s).trans (addToHl_of_pair_eq s rfl)
  · rw [exec_addhlBc, addToHl_eq, hhl, hbc]
    rfl

end Sys2Proof.Machine
end

section
/-! PROOFS. The encoding family: what each format of the port word decodes to, that decoding drops no field of the word, and
which words decode at all (30_encoding.md R75 to R84). -/

namespace Sys2Proof

/-! ## The fields, there and back -/

/-- A register that an r field selects has that field as its code (R77). -/
theorem code_of_targetOf {r : BitVec 3} {t : ArithmeticTarget} : targetOf r = some t → t.code = r := by
  revert r
  cases t <;> decide

@[simp] theorem code_addHlTargetOf (p : BitVec 2) : (addHlTargetOf p).code = p := by
  revert p
  decide

/-- The op field of a variant's word is the one that selects it (R76). -/
theorem encode_variantOf (op : BitVec 3) (t : ArithmeticTarget) : (variantOf op t).encode = formatR8 op t := by
  revert op
  cases t <;> decide

/-- The d field of a word of format U8 tells INC from DEC (R81). -/
theorem encode_incOrDec (d : BitVec 1) (t : ArithmeticTarget) :
    (if d = 0#1 then Instruction.inc t else .dec t).encode = formatU8 t d := by
  revert d
  cases t <;> decide

/-! The d field and the two bits before it as one field of three bits. -/

theorem formatU8_zero (t : ArithmeticTarget) : formatU8 t 0#1 = 0b00#2 ++ t.code ++ 0b100#3 := by
  cases t <;> rfl

theorem formatU8_one (t : ArithmeticTarget) : formatU8 t 1#1 = 0b00#2 ++ t.code ++ 0b101#3 := by
  cases t <;> rfl

/-! ## The fields of a word make up the word (R75) -/

section Fields

variable (w : Byte)

theorem append_fieldsR8 : w.extractLsb' 6 2 ++ w.extractLsb' 3 3 ++ w.extractLsb' 0 3 = w := by
  rw [BitVec.extractLsb'_append_extractLsb'_eq_extractLsb' (by rfl),
    BitVec.extractLsb'_append_extractLsb'_eq_extractLsb' (by rfl), BitVec.extractLsb'_eq_self]

theorem append_fieldsP16 : w.extractLsb' 6 2 ++ w.extractLsb' 4 2 ++ w.extractLsb' 0 4 = w := by
  rw [BitVec.extractLsb'_append_extractLsb'_eq_extractLsb' (by rfl),
    BitVec.extractLsb'_append_extractLsb'_eq_extractLsb' (by rfl), BitVec.extractLsb'_eq_self]

theorem append_fieldsU8 :
    w.extractLsb' 6 2 ++ w.extractLsb' 3 3 ++ w.extractLsb' 1 2 ++ w.extractLsb' 0 1 = w := by
  rw [BitVec.extractLsb'_append_extractLsb'_eq_extractLsb' (by rfl),
    BitVec.extractLsb'_append_extractLsb'_eq_extractLsb' (by rfl),
    BitVec.extractLsb'_append_extractLsb'_eq_extractLsb' (by rfl), BitVec.extractLsb'_eq_self]

end Fields

/-! ## Each format decodes to the variant its fields select (R82) -/

theorem decodeValue_formatR8 (op : BitVec 3) (t : ArithmeticTarget) :
    decodeValue (formatR8 op t) = some (variantOf op t) := by
  revert op
  cases t <;> decide

theorem decodeValue_formatP16 (p : AddHlTarget) : decodeValue (formatP16 p) = some (.addhl p) := by
  cases p <;> decide

theorem decodeValue_formatU8 (d : BitVec 1) (t : ArithmeticTarget) :
    decodeValue (formatU8 t d) = some (if d = 0#1 then .inc t else .dec t) := by
  revert d
  cases t <;> decide

/-- With 110 for its r field, a word of format R8 is none's (R77). -/
theorem decodeValue_memoryOperand (op : BitVec 3) : decodeValue (0b10#2 ++ op ++ 0b110#3 : BitVec 8) = none := by
  revert op
  decide

/-! ## Decode and encode are inverse to each other -/

theorem decodeValue_encode (v : Instruction) : decodeValue v.encode = some v := by
  cases v with
  | add t => exact decodeValue_formatR8 0b000#3 t
  | adc t => exact decodeValue_formatR8 0b001#3 t
  | sub t => exact decodeValue_formatR8 0b010#3 t
  | sbc t => exact decodeValue_formatR8 0b011#3 t
  | and t => exact decodeValue_formatR8 0b100#3 t
  | xor t => exact decodeValue_formatR8 0b101#3 t
  | or t => exact decodeValue_formatR8 0b110#3 t
  | cp t => exact decodeValue_formatR8 0b111#3 t
  | addhl p => exact decodeValue_formatP16 p
  | inc t => exact decodeValue_formatU8 0#1 t
  | dec t => exact decodeValue_formatU8 1#1 t

/-- The tests of decode fix the constant fields of its format, and the selectors have the other fields as their codes: put
together again they are the word. -/
theorem encode_of_decodeValue {w : Byte} {v : Instruction} (h : decodeValue w = some v) : v.encode = w := by
  unfold decodeValue at h
  split at h
  next hR8 =>
    split at h
    · cases h
    · obtain ⟨t, ht, rfl⟩ := Option.map_eq_some_iff.mp h
      rw [encode_variantOf, formatR8, code_of_targetOf ht, ← hR8, append_fieldsR8]
  next =>
    split at h
    next hP16 =>
      obtain ⟨htop, hlow⟩ := hP16
      cases h
      rw [Instruction.encode, formatP16, code_addHlTargetOf, ← htop, ← hlow, append_fieldsP16]
    next =>
      split at h
      next hU8 =>
        obtain ⟨htop, hmid, -⟩ := hU8
        obtain ⟨t, ht, rfl⟩ := Option.map_eq_some_iff.mp h
        rw [encode_incOrDec, formatU8, code_of_targetOf ht, ← htop, ← hmid, append_fieldsU8]
      next => cases h

theorem decodeValue_eq_some {w : Byte} {v : Instruction} : decodeValue w = some v ↔ v.encode = w :=
  ⟨encode_of_decodeValue, fun h => h ▸ decodeValue_encode v⟩

theorem decode_of_decodeValue_some {w : Byte} {v : Instruction} (h : decodeValue w = some v) :
    decode w = .instr v.toInstr := by
  rw [decode, h]

theorem decode_of_decodeValue_none {w : Byte} (h : decodeValue w = none) : decode w = .unassigned w := by
  rw [decode, h]

/-- The two spellings of an instruction decode alike. -/
theorem decode_eq_instr {w : Byte} {i : Instr} : decode w = .instr i ↔ decodeValue w = some i.value := by
  cases h : decodeValue w with
  | none => simp [decode_of_decodeValue_none h]
  | some v =>
    rw [decode_of_decodeValue_some h, Decoded.instr.injEq, Option.some.injEq]
    exact ⟨fun hv => hv ▸ (Instruction.value_toInstr v).symm, fun hv => hv ▸ Instr.toInstr_value i⟩

/-! ## Which words decode -/

/-- The words R80 and R81 list are the ones R82's decode accepts. -/
theorem decodeValue_isSome (w : Byte) : (decodeValue w).isSome = assignedWord w := by
  revert w
  decide

theorem decode_of_not_assigned {w : Byte} (h : assignedWord w = false) : decode w = .unassigned w := by
  rw [← decodeValue_isSome, Option.isSome_eq_false_iff, Option.isNone_iff_eq_none] at h
  exact decode_of_decodeValue_none h

theorem assignedWord_of_decode {w : Byte} {i : Instr} (h : decode w = .instr i) : assignedWord w = true := by
  rw [← decodeValue_isSome, decode_eq_instr.mp h]
  rfl

theorem exists_decode_iff {w : Byte} : (∃ i, decode w = .instr i) ↔ assignedWord w = true := by
  refine ⟨fun ⟨i, hi⟩ => assignedWord_of_decode hi, fun h => ?_⟩
  rw [← decodeValue_isSome] at h
  obtain ⟨v, hv⟩ := Option.isSome_iff_exists.mp h
  exact ⟨_, decode_of_decodeValue_some hv⟩

/-- The table's word decodes to the instruction the table reads from it. -/
theorem decode_of_decodeTableWord {nbits w : Nat} {i : Instr} (h : decodeTableWord nbits w = some i) :
    decode (tableWord nbits w) = .instr i := by
  unfold decodeTableWord at h
  split at h
  next j hj => exact Option.some.inj h ▸ hj
  next => cases h

/-! ## The statements of the family -/

/-- Settles O26: decode and encode are inverse on the values of the union, and the constructors are those values. -/
theorem decodeAndEncodeAgree : Obligations.DecodeAndEncodeAgree :=
  ⟨fun _ _ => decode_eq_instr.trans decodeValue_eq_some,
    fun v => ⟨decode_of_decodeValue_some (decodeValue_encode v), Instruction.value_toInstr v⟩⟩

/-- Settles O27: the words that decode are the assigned ones, the kernel counts them, and each format decodes by its
fields. -/
theorem decodeIsTotalAndCounts : Obligations.DecodeIsTotalAndCounts := by
  refine ⟨fun _ => exists_decode_iff, fun _ => decode_of_not_assigned, ?_, ?_, ?_, fun op t => ?_, fun op => ?_,
    fun p => ?_, fun t => ⟨?_, ?_⟩⟩
  · decide +kernel
  · decide +kernel
  · decide +kernel
  · exact decode_of_decodeValue_some (decodeValue_formatR8 op t)
  · exact decode_of_decodeValue_none (decodeValue_memoryOperand op)
  · exact decode_of_decodeValue_some (decodeValue_formatP16 p)
  · exact decode_of_decodeValue_some (decodeValue_eq_some.mpr (formatU8_zero t))
  · exact decode_of_decodeValue_some (decodeValue_eq_some.mpr (formatU8_one t))

/-- Settles O28: each word is decoded. -/
theorem implementedWordsDecode : Obligations.ImplementedWordsDecode := by
  unfold Obligations.ImplementedWordsDecode
  decide

/-- Settles O29: each word is decoded; the words with r = 110 decode to nothing. -/
theorem reservedWordsDecode : Obligations.ReservedWordsDecode := by
  unfold Obligations.ReservedWordsDecode
  decide

end Sys2Proof
end

section
/-! PROOFS. Execute, for every instruction at once: one equation says what it answers (40_dispatch.md R100 to R104), by the
Register File that an Instruction value leaves and the status of R160's table. Frames, errors and the statements about single
families are read off it. -/

namespace Sys2Proof.Machine

open Sys2Proof.Safety

/-! ## The Register File an Execute leaves -/

/-- A and the flags set to the result of an 8-bit primitive (R122 to R124). -/
def RegisterFile.writeA (rf : RegisterFile) (x : AluResult 8) : RegisterFile :=
  { rf with a := x.value, flags := x.flags }

/-- HL and the flags set to the result of a 16-bit primitive (R141). -/
def RegisterFile.writeHl (rf : RegisterFile) (x : AluResult 16) : RegisterFile :=
  { rf.setPair .hl x.value with flags := x.flags }

/-- The Register File after Execute of an Instruction value; an error leaves it as it was (R102, R104, R144, R163). -/
def RegisterFile.afterExecute (rf : RegisterFile) : Instruction → RegisterFile
  | .add t => rf.writeA (add8 rf.flags rf.a (rf.reg8 t) false)
  | .adc t => rf.writeA (add8 rf.flags rf.a (rf.reg8 t) true)
  | .sub t => rf.writeA (sub8 rf.a (rf.reg8 t))
  | .addhl .bc => rf.writeHl (add16 (rf.pair .hl) (rf.pair .bc))
  | .addhl .de => rf.writeHl (add16 (rf.pair .hl) (rf.pair .de))
  | .addhl .hl => rf.writeHl (add16 (rf.pair .hl) (rf.pair .hl))
  | .addhl .sp => rf
  | .sbc _ | .and _ | .or _ | .xor _ | .cp _ | .inc _ | .dec _ => rf

/-- What Execute answers, whatever the instruction and the state: the new Register File, the status of the table, and the
caller's fields as they were. -/
theorem exec_eq (i : Instr) (s : State) :
    exec i s = .next { s with rf := s.rf.afterExecute i.value, reply := .status (statusOf i) } := by
  cases i <;> rfl

theorem exec_toInstr_eq (v : Instruction) (s : State) :
    exec v.toInstr s = .next { s with rf := s.rf.afterExecute v, reply := .status (statusOf v.toInstr) } := by
  rw [exec_eq, Instruction.value_toInstr]

theorem exec_next {i : Instr} {s t : State} (h : exec i s = .next t) :
    t = { s with rf := s.rf.afterExecute i.value, reply := .status (statusOf i) } := by
  rw [exec_eq] at h
  cases h
  rfl

/-! ## The status of an instruction (R160) -/

theorem statusOf_cases (i : Instr) :
    (reservedVariant i.value = false ∧ i.value ≠ .addhl .sp ∧ statusOf i = .ok) ∨
    (reservedVariant i.value = true ∧ statusOf i = .unsupportedInstruction (.instr i)) ∨
    (i.value = .addhl .sp ∧ statusOf i = .ambiguousSemantics i) := by
  unfold statusOf
  split
  next hres => exact .inr (.inl ⟨hres, rfl⟩)
  next hres =>
    split
    next hsp => exact .inr (.inr ⟨hsp, rfl⟩)
    next hsp => exact .inl ⟨Bool.eq_false_of_not_eq_true hres, hsp, rfl⟩

/-- An instruction that completes is no reserved variant and not ADDHL SP. -/
theorem completing_of_statusOf_ok {i : Instr} (h : statusOf i = .ok) :
    reservedVariant i.value = false ∧ i.value ≠ .addhl .sp := by
  obtain ⟨hres, hsp, -⟩ | ⟨-, hst⟩ | ⟨-, hst⟩ := statusOf_cases i
  · exact ⟨hres, hsp⟩
  · rw [hst] at h
    cases h
  · rw [hst] at h
    cases h

theorem statusOf_toInstr_of_completing {v : Instruction} (hres : reservedVariant v = false) (hsp : v ≠ .addhl .sp) :
    statusOf v.toInstr = .ok := by
  simp [statusOf, hres, hsp]

theorem statusOf_toInstr_of_reserved {v : Instruction} (h : reservedVariant v = true) :
    statusOf v.toInstr = .unsupportedInstruction (.instr v.toInstr) := by
  simp [statusOf, h]

/-- The variants R104 lists are the reserved ones. -/
theorem reservedVariant_of_mem {t : ArithmeticTarget} {v : Instruction}
    (h : v ∈ [Instruction.sbc t, .and t, .or t, .xor t, .cp t, .inc t, .dec t]) : reservedVariant v = true := by
  simp only [List.mem_cons, List.not_mem_nil, or_false] at h
  obtain rfl | rfl | rfl | rfl | rfl | rfl | rfl := h <;> rfl

/-! ## The frame of an Execute (R103) -/

section Frame

variable {rf : RegisterFile} {r : ArithmeticTarget} {v : Instruction}

theorem RegisterFile.reg8_writeA_of_ne (x : AluResult 8) (h : r ≠ .a) : (rf.writeA x).reg8 r = rf.reg8 r := by
  cases r with
  | a => exact absurd rfl h
  | _ => rfl

theorem RegisterFile.reg8_writeHl_of_ne (x : AluResult 16) (hh : r ≠ .h) (hl : r ≠ .l) :
    (rf.writeHl x).reg8 r = rf.reg8 r := by
  cases r with
  | h => exact absurd rfl hh
  | l => exact absurd rfl hl
  | _ => rfl

/-- An Execute writes no register but the destinations of its value. -/
theorem RegisterFile.reg8_afterExecute (h : r ∉ destinations v) : (rf.afterExecute v).reg8 r = rf.reg8 r := by
  cases v with
  | add t => exact reg8_writeA_of_ne _ (List.ne_of_not_mem_cons h)
  | adc t => exact reg8_writeA_of_ne _ (List.ne_of_not_mem_cons h)
  | sub t => exact reg8_writeA_of_ne _ (List.ne_of_not_mem_cons h)
  | addhl p =>
    cases p with
    | sp => rfl
    | _ =>
      obtain ⟨hh, hl⟩ := not_or.mp (mt List.mem_pair.mpr h)
      exact reg8_writeHl_of_ne _ hh hl
  | _ => rfl

/-- The destinations: A for the 8-bit forms, H and L for ADDHL. -/
theorem cases_of_mem_destinations (h : r ∈ destinations v) :
    (r = .a ∧ ∀ p, v ≠ .addhl p) ∨ ((r = .h ∨ r = .l) ∧ ∃ p, v = .addhl p) := by
  cases v with
  | add t => exact .inl ⟨List.mem_singleton.mp h, nofun⟩
  | adc t => exact .inl ⟨List.mem_singleton.mp h, nofun⟩
  | sub t => exact .inl ⟨List.mem_singleton.mp h, nofun⟩
  | addhl p =>
    cases p with
    | sp => cases h
    | _ => exact .inr ⟨List.mem_pair.mp h, _, rfl⟩
  | _ => cases h

theorem not_mem_destinations_of_mem_bcde (h : r ∈ [ArithmeticTarget.b, .c, .d, .e]) : r ∉ destinations v := by
  intro hd
  obtain ⟨rfl, -⟩ | ⟨rfl | rfl, -⟩ := cases_of_mem_destinations hd <;> revert h <;> decide

theorem a_not_mem_destinations (p : AddHlTarget) : .a ∉ destinations (.addhl p) := by
  cases p <;> decide

theorem hl_not_mem_destinations (h : ∀ p, v ≠ .addhl p) : .h ∉ destinations v ∧ .l ∉ destinations v := by
  refine ⟨fun hd => ?_, fun hd => ?_⟩
  all_goals
    obtain ⟨hr, -⟩ | ⟨-, p, hp⟩ := cases_of_mem_destinations hd
    · cases hr
    · exact h p hp

theorem RegisterFile.afterExecute_of_reserved (h : reservedVariant v = true) : rf.afterExecute v = rf := by
  cases v with
  | add | adc | sub | addhl => cases h
  | _ => rfl

/-- An instruction that returns an error leaves the Register File (R163). -/
theorem RegisterFile.afterExecute_of_error {i : Instr} (h : statusOf i ≠ .ok) : rf.afterExecute i.value = rf := by
  obtain ⟨-, -, hst⟩ | ⟨hres, -⟩ | ⟨hsp, -⟩ := statusOf_cases i
  · exact absurd hst h
  · exact afterExecute_of_reserved hres
  · rw [hsp]
    rfl

/-- Only ADC reads a flag: of every other form that completes, the flags before are overwritten unread (R103). -/
theorem RegisterFile.afterExecute_with_flags (f : Flags) (hres : reservedVariant v = false) (hsp : v ≠ .addhl .sp)
    (hadc : ∀ t, v ≠ .adc t) : RegisterFile.afterExecute { rf with flags := f } v = rf.afterExecute v := by
  cases v with
  | add t => simp only [afterExecute, reg8_with_flags]; rfl
  | adc t => exact absurd rfl (hadc t)
  | sub t => simp only [afterExecute, reg8_with_flags]; rfl
  | addhl p =>
    cases p with
    | sp => exact absurd rfl hsp
    | _ => rfl
  | _ => cases hres

/-- ADC reads C alone. -/
theorem RegisterFile.afterExecute_adc_with_flags (t : ArithmeticTarget) (z n h : Bool) :
    RegisterFile.afterExecute { rf with flags := ⟨z, n, h, rf.flags.c⟩ } (.adc t) = rf.afterExecute (.adc t) := by
  simp only [afterExecute, reg8_with_flags]
  rfl

/-- A zero result sets Z, so no write of a result zeroes the whole Register File. -/
theorem RegisterFile.writeA_ne_zero {x : AluResult 8} (hz : x.flags.z = true ↔ x.value = 0#8) :
    rf.writeA x ≠ .zero := by
  intro h
  have hvalue : x.value = 0#8 := congrArg RegisterFile.a h
  have hclear : x.flags.z = false := congrArg (fun rf => rf.flags.z) h
  rw [hz.mpr hvalue] at hclear
  cases hclear

theorem RegisterFile.writeHl_ne_zero {x : AluResult 16} (hz : x.flags.z = true ↔ x.value = 0#16) :
    rf.writeHl x ≠ .zero := by
  intro h
  have hhigh : highHalf x.value = 0#8 := congrArg RegisterFile.h h
  have hlow : lowHalf x.value = 0#8 := congrArg RegisterFile.l h
  have hvalue : x.value = 0#16 := by rw [← joinBytes_halves x.value, hhigh, hlow]; rfl
  have hclear : x.flags.z = false := congrArg (fun rf => rf.flags.z) h
  rw [hz.mpr hvalue] at hclear
  cases hclear

theorem RegisterFile.afterExecute_ne_zero (hres : reservedVariant v = false) (hsp : v ≠ .addhl .sp) :
    rf.afterExecute v ≠ .zero := by
  cases v with
  | add t => exact writeA_ne_zero (add8_flags_z ..)
  | adc t => exact writeA_ne_zero (add8_flags_z ..)
  | sub t => exact writeA_ne_zero (sub8_flags_z ..)
  | addhl p =>
    cases p with
    | sp => exact absurd rfl hsp
    | _ => exact writeHl_ne_zero (add16_flags_z ..)
  | _ => cases hres

end Frame

/-! ## Execute that returns an error, and ExecuteWord -/

section Errors

variable {i : Instr} {w : Byte} {s t : State}

theorem exec_of_error (h : statusOf i ≠ .ok) (s : State) : exec i s = .next (returned s (statusOf i)) := by
  rw [exec_eq, RegisterFile.afterExecute_of_error h]
  rfl

theorem exec_of_reserved {v : Instruction} (h : reservedVariant v = true) (s : State) :
    exec v.toInstr s = .next (returned s (.unsupportedInstruction (.instr v.toInstr))) := by
  have hst := statusOf_toInstr_of_reserved h
  rw [← hst]
  exact exec_of_error (by rw [hst]; nofun) s

/-- ExecuteWord is Execute of the word's instruction with its status, or the error of an unassigned word (R83, R101). -/
theorem executeWord_cases (w : Byte) :
    (∃ i, decode w = .instr i ∧ statusOfWord w = statusOf i ∧ ∀ s, executeWord w s = exec i s) ∨
    (assignedWord w = false ∧ decode w = .unassigned w ∧ statusOfWord w = .unsupportedInstruction (.word w) ∧
      ∀ s, executeWord w s = .next (returned s (.unsupportedInstruction (.word w)))) := by
  cases h : assignedWord w with
  | true =>
    obtain ⟨i, hi⟩ := exists_decode_iff.mpr h
    exact .inl ⟨i, hi, by rw [statusOfWord, hi], fun s => by rw [executeWord, hi]⟩
  | false =>
    have hu := decode_of_not_assigned h
    exact .inr ⟨rfl, hu, by rw [statusOfWord, hu], fun s => by rw [executeWord, hu]; rfl⟩

/-- A word that returns an error returns it in every state and writes nothing (R163, R164). -/
theorem executeWord_of_error (h : statusOfWord w ≠ .ok) (s : State) :
    executeWord w s = .next (returned s (statusOfWord w)) := by
  obtain ⟨i, -, hst, hexec⟩ | ⟨-, -, hst, hexec⟩ := executeWord_cases w
  · rw [hst, hexec]
    exact exec_of_error (hst ▸ h) s
  · rw [hst, hexec]

theorem exists_executeWord (w : Byte) (s : State) :
    ∃ t : State, executeWord w s = .next t ∧ t.reply = .status (statusOfWord w) := by
  obtain ⟨i, -, hst, hexec⟩ | ⟨-, -, hst, hexec⟩ := executeWord_cases w
  · rw [hexec, hst]
    exact ⟨_, exec_eq i s, rfl⟩
  · rw [hexec, hst]
    exact ⟨_, rfl, rfl⟩

theorem executeWord_reply (h : executeWord w s = .next t) : t.reply = .status (statusOfWord w) := by
  obtain ⟨u, hu, hreply⟩ := exists_executeWord w s
  rw [h] at hu
  cases hu
  exact hreply

end Errors

/-! ## SUB on a state (R121, R124) -/

section Sub

variable (x y : Byte) (r : ArithmeticTarget) (s : State)

theorem sub8_flags_z_iff_eq : (sub8 x y).flags.z = true ↔ x = y := by
  rw [sub8_flags_z, sub8_value_eq_sub, BitVec.sub_eq_iff_eq_add, BitVec.zero_add]

/-- The difference as a number, with 256 borrowed where it is negative. -/
theorem sub8_value_eq_ite :
    (sub8 x y).value =
      if y.toNat > x.toNat then BitVec.ofNat 8 (x.toNat + 256 - y.toNat) else BitVec.ofNat 8 (x.toNat - y.toNat) := by
  have hx := x.isLt
  apply BitVec.eq_of_toNat_eq
  rw [sub8_value_toNat]
  split <;> rw [BitVec.toNat_ofNat] <;> omega

theorem sub8_self : sub8 x x = ⟨0x00#8, ⟨true, true, false, false⟩⟩ := by
  simp [sub8]

/-- SUB reads no flag: whatever they were, it leaves the same state (R124). -/
theorem subFromA_with_flags (f : Flags) :
    subFromA r { s with rf := { s.rf with flags := f } } = subFromA r s := by
  simp only [subFromA, RegisterFile.reg8_with_flags]
  rfl

/-- R124's result and flags. -/
theorem exec_sub_eq :
    let v := s.rf.reg8 r
    exec (Instruction.sub r).toInstr s =
      .next (aluA s (if v.toNat > s.rf.a.toNat then BitVec.ofNat 8 (s.rf.a.toNat + 256 - v.toNat)
          else BitVec.ofNat 8 (s.rf.a.toNat - v.toNat))
        (decide (v = s.rf.a)) true (decide (v.toNat % 16 > s.rf.a.toNat % 16)) (decide (v.toNat > s.rf.a.toNat))) := by
  intro v
  have hz : (sub8 s.rf.a v).flags.z = decide (v = s.rf.a) := by
    rw [Bool.eq_iff_iff, decide_eq_true_iff, sub8_flags_z_iff_eq, eq_comm]
  rw [exec_toInstr_sub, ← sub8_value_eq_ite, ← hz]
  rfl

end Sub

/-- The carry out of an 8-bit sum is its quotient by 256 (R120). -/
theorem carry_eq_div_256 {sum : Nat} (h : sum < 256 + 256) :
    (if decide (sum > 255) = true then 1 else 0) = sum / 256 := by
  simp only [decide_eq_true_eq]
  split <;> omega

/-! ## The statements of the family -/

/-- Settles O3: a completing instruction leaves Z set or a nonzero result, so an all-zero end means an error, which wrote
nothing. -/
theorem noInstructionZeroesTheCore : Obligations.NoInstructionZeroesTheCore := by
  intro i s t ht hzero
  obtain rfl := exec_next ht
  have herr : statusOf i ≠ .ok := fun hok =>
    have ⟨hres, hsp⟩ := completing_of_statusOf_ok hok
    RegisterFile.afterExecute_ne_zero hres hsp hzero
  exact ⟨(RegisterFile.afterExecute_of_error herr).symm.trans hzero, fun hreply => herr (Reply.status.inj hreply)⟩

/-- Settles O5: the laws of sub8, field by field. -/
theorem sub8ResultAndFlags : Obligations.Sub8ResultAndFlags := by
  intro x y
  refine ⟨sub8_value_eq_sub x y, sub8_flags_z_iff_eq x y, sub8_flags_n x y, ?_, ?_⟩
  · rw [sub8_flags_h, decide_eq_true_iff]
  · rw [sub8_flags_c, decide_eq_true_iff]

/-- Settles O9: each form is its shared operation, and the reserved ones an error. -/
theorem executeIsTheDispatch : Obligations.ExecuteIsTheDispatch := by
  intro s
  refine ⟨fun t => ⟨exec_toInstr_add t s, exec_toInstr_adc t s, exec_toInstr_sub t s⟩, fun pq hpq => ?_,
    exec_eq .addhlSp s, fun t v hv => exec_of_reserved (reservedVariant_of_mem hv) s⟩
  simp only [List.mem_cons, List.not_mem_nil, or_false] at hpq
  obtain rfl | rfl | rfl := hpq
  · exact exec_addhlBc s
  · exact exec_addhlDe s
  · exact exec_addhlHl s

/-- Settles O12: the general law, its case A - A, the carry SUB does not read, the words and the two examples. -/
theorem subtractRegisterFromA : Obligations.SubtractRegisterFromA := by
  refine ⟨exec_sub_eq, fun s => ?_, fun r s carry => ⟨_, exec_toInstr_sub r s, ?_⟩, by decide, fun s ha hb => ?_,
    fun s ha hd => ?_⟩
  · rw [exec_eq]
    simp only [Instr.value, RegisterFile.afterExecute, RegisterFile.reg8, sub8_self]
    rfl
  · rw [exec_toInstr_sub, subFromA_with_flags]
    rfl
  · have h := exec_sub_eq .b s
    simp only [RegisterFile.reg8, ha, hb] at h
    exact h
  · have h := exec_sub_eq .d s
    simp only [RegisterFile.reg8, ha, hd] at h
    exact h

/-- Settles O14: ADDHL SP's status is an error, and 0x39 is its word. -/
theorem addHlSpIsAmbiguous : Obligations.AddHlSpIsAmbiguous :=
  ⟨exec_eq .addhlSp, by decide, by decide⟩

/-- Settles O15: the variants listed are the reserved ones. -/
theorem reservedVariantsAreUnsupported : Obligations.ReservedVariantsAreUnsupported :=
  fun s _ _ hv => exec_of_reserved (reservedVariant_of_mem hv) s

/-- Settles O16: the registers outside the destinations; the flags only ADC reads; ADC's flags, with the old C. -/
theorem destinationAndFlagsFrame : Obligations.DestinationAndFlagsFrame := by
  refine ⟨fun i s t ht _ => ?_, fun i s t old ht hok hadc => ?_, fun r s z n h => ?_⟩
  · obtain rfl := exec_next ht
    have hbcde : ∀ r ∈ [ArithmeticTarget.b, .c, .d, .e], (s.rf.afterExecute i.value).reg8 r = s.rf.reg8 r :=
      fun r hr => RegisterFile.reg8_afterExecute (not_mem_destinations_of_mem_bcde hr)
    refine ⟨hbcde .b (by decide), hbcde .c (by decide), hbcde .d (by decide), hbcde .e (by decide),
      fun ⟨p, hp⟩ => ?_, fun hno => ?_, rfl, rfl, rfl, rfl⟩
    · exact RegisterFile.reg8_afterExecute (r := .a) (hp ▸ a_not_mem_destinations p)
    · obtain ⟨hh, hl⟩ := hl_not_mem_destinations hno
      exact ⟨RegisterFile.reg8_afterExecute hh, RegisterFile.reg8_afterExecute hl⟩
  · obtain rfl := exec_next ht
    obtain ⟨hres, hsp⟩ := completing_of_statusOf_ok (Reply.status.inj hok)
    rw [exec_eq, RegisterFile.afterExecute_with_flags old hres hsp hadc]
  · refine ⟨_, exec_toInstr_eq (.adc r) s, ?_, add8_flags_z .., add8_flags_n .., add8_flags_h_iff ..,
      add8_flags_c_iff ..⟩
    rw [exec_toInstr_eq, RegisterFile.afterExecute_adc_with_flags]

/-- Settles O18: the answer is the Register File's. -/
theorem executeSeesOnlyTheRegisterFile : Obligations.ExecuteSeesOnlyTheRegisterFile :=
  fun i s s' h => ⟨s.rf.afterExecute i.value, statusOf i, exec_eq i s, h ▸ exec_eq i s'⟩

/-- Settles O19: the ADD's carry is the quotient of its sum by 256, and it is the ADC's carry-in. -/
theorem carryChainsFromAddToAdc : Obligations.CarryChainsFromAddToAdc := by
  intro r q s
  refine ⟨_, _, exec_add_eq r s, exec_adc_eq q _, ?_⟩
  have hsum : s.rf.a.toNat + (s.rf.reg8 r).toNat < 256 + 256 := Nat.add_lt_add s.rf.a.isLt (s.rf.reg8 r).isLt
  rw [← carry_eq_div_256 hsum]
  exact BitVec.toNat_ofNat ..

/-- Settles O20: Execute replies `statusOf`, ExecuteWord `statusOfWord`, and both are the table's. -/
theorem statusTable : Obligations.StatusTable := by
  refine ⟨fun i s => ⟨_, exec_eq i s, rfl⟩, exists_executeWord, fun t => ⟨?_, ?_, ?_⟩, rfl, rfl, rfl,
    fun t v hv => statusOf_toInstr_of_reserved (reservedVariant_of_mem hv), fun w hw => ?_, rfl, by decide,
    rfl, fun _ => rfl, fun _ => rfl, fun st => ?_⟩
  · exact statusOf_toInstr_of_completing rfl nofun
  · exact statusOf_toInstr_of_completing rfl nofun
  · exact statusOf_toInstr_of_completing rfl nofun
  · rw [statusOfWord, decode_of_not_assigned hw]
  · cases st <;> simp [Status.code]

/-- Settles O21: an error status means the Register File was left, by an instruction and by a word. -/
theorem errorWritesNothing : Obligations.ErrorWritesNothing := by
  refine ⟨fun i s t ht hne => ?_, fun w s t ht hne => ?_⟩
  · have herr : statusOf i ≠ .ok := fun hok => hne (by rw [exec_next ht, hok])
    rw [exec_of_error herr] at ht
    cases ht
    rfl
  · have herr : statusOfWord w ≠ .ok := fun hok => hne (by rw [executeWord_reply ht, hok])
    rw [executeWord_of_error herr] at ht
    cases ht
    rfl

/-- Settles O22: the status returned is the instruction's or the word's, in whatever state. -/
theorem sameErrorInEveryState : Obligations.SameErrorInEveryState := by
  refine ⟨fun i s t st ht hst hne s' => ?_, fun w s t st ht hst hne s' => ?_⟩
  · obtain rfl := exec_next ht
    obtain rfl := Reply.status.inj hst
    exact exec_of_error hne s'
  · obtain rfl := Reply.status.inj ((executeWord_reply ht).symm.trans hst)
    exact executeWord_of_error hne s'

/-- Settles O23: an unassigned word decodes to itself; the kernel counts the words. -/
theorem unassignedWordsAreUnsupported : Obligations.UnassignedWordsAreUnsupported := by
  refine ⟨fun w s hw => ?_, ?_, ?_⟩
  · rw [executeWord, decode_of_not_assigned hw]
    rfl
  · decide +kernel
  · decide

end Sys2Proof.Machine
end

section
/-! PROOFS. The host's accesses (10_state.md R26, R37 to R39, 20_memory.md R52): what each writes, as a frame and as a value
that no earlier state plays a part in, and what follows for repeating and for exchanging accesses. -/

namespace Sys2Proof.Machine

open Sys2Proof.Safety

/-! ## What a host access writes -/

section HostWrites

variable {q : HostAccess} {r : ArithmeticTarget} (s : State)

theorem RegisterFile.reg8_setPair_of_not_mem (rf : RegisterFile) {p : Pair} (v : Word) (h : r ∉ halves p) :
    (rf.setPair p v).reg8 r = rf.reg8 r := by
  cases p <;> cases r <;> first | rfl | exact absurd h (by decide)

/-- A pair write gives each of its registers a half of the value, whatever was there. -/
theorem RegisterFile.reg8_setPair_of_mem (rf rf' : RegisterFile) {p : Pair} (v : Word) (h : r ∈ halves p) :
    (rf.setPair p v).reg8 r = (rf'.setPair p v).reg8 r := by
  cases p <;> cases r <;> first | rfl | exact absurd h (by decide)

/-- A register outside a host access's write set is left. -/
theorem hostAccess_reg8_of_not_mem (h : r ∉ hostWrites q) : (hostAccess q s).rf.reg8 r = s.rf.reg8 r := by
  cases q with
  | writeReg t v => exact RegisterFile.reg8_setReg8_of_ne _ _ (List.ne_of_not_mem_cons h)
  | setPair p v => exact RegisterFile.reg8_setPair_of_not_mem _ v h
  | writeFlags b => exact RegisterFile.reg8_with_flags ..
  | _ => rfl

/-- A register in the write set gets a value of the access's own. -/
theorem hostAccess_reg8_of_mem (s' : State) (h : r ∈ hostWrites q) :
    (hostAccess q s).rf.reg8 r = (hostAccess q s').rf.reg8 r := by
  cases q with
  | writeReg t v =>
    obtain rfl := List.mem_singleton.mp h
    simp only [hostAccess, State.store_rf, RegisterFile.reg8_setReg8_self]
  | setPair p v => exact RegisterFile.reg8_setPair_of_mem _ _ v h
  | _ => cases h

theorem hostAccess_flags_of_false (h : hostWritesFlags q = false) : (hostAccess q s).rf.flags = s.rf.flags := by
  cases q with
  | writeReg t v => exact RegisterFile.flags_setReg8 ..
  | setPair p v => exact RegisterFile.flags_setPair_of_ne _ _ (of_decide_eq_false h)
  | writeFlags b => cases h
  | _ => rfl

theorem hostAccess_flags_of_true (s' : State) (h : hostWritesFlags q = true) :
    (hostAccess q s).rf.flags = (hostAccess q s').rf.flags := by
  cases q with
  | setPair p v =>
    obtain rfl : p = .af := of_decide_eq_true h
    rfl
  | writeFlags b => rfl
  | _ => cases h

end HostWrites

/-- A Register File is its seven registers and its flags (R20). -/
theorem RegisterFile.eq_of_reg8_of_flags {rf rf' : RegisterFile} (hreg : ∀ r, rf.reg8 r = rf'.reg8 r)
    (hflags : rf.flags = rf'.flags) : rf = rf' := by
  cases rf
  cases rf'
  exact (RegisterFile.mk.injEq ..).mpr
    ⟨hreg .a, hreg .b, hreg .c, hreg .d, hreg .e, hreg .h, hreg .l, hflags⟩

/-! ## Repeating a write -/

section Repeat

variable (rf : RegisterFile)

@[simp] theorem RegisterFile.setReg8_setReg8_self (t : ArithmeticTarget) (v w : Byte) :
    (rf.setReg8 t v).setReg8 t w = rf.setReg8 t w := by
  cases t <;> rfl

@[simp] theorem RegisterFile.setPair_setPair_self (p : Pair) (v w : Word) :
    (rf.setPair p v).setPair p w = rf.setPair p w := by
  cases p <;> rfl

end Repeat

/-! ## The statements of the family -/

/-- Settles O33: a pair is its two bytes joined. -/
theorem pairViewIsHighByteFirst : Obligations.PairViewIsHighByteFirst :=
  fun _ => ⟨joinBytes_toNat .., joinBytes_toNat .., joinBytes_toNat .., joinBytes_toNat ..⟩

/-- Settles O35: the halves of joined bytes are the bytes, and a write of a byte is a join with the other one. -/
theorem halvesOfAPair : Obligations.HalvesOfAPair := by
  intro rf v
  refine ⟨highHalf_joinBytes .., lowHalf_joinBytes .., highHalf_joinBytes .., lowHalf_joinBytes ..,
    highHalf_joinBytes .., lowHalf_joinBytes .., highHalf_joinBytes .., lowHalf_joinBytes ..,
    rfl, rfl, rfl, rfl, rfl, rfl, rfl, ?_⟩
  have hlow : rf.flags.pack.toNat % 16 = 0 := rf.flags.pack_low_nibble
  have haf : (rf.pair .af).toNat = 256 * rf.a.toNat + rf.flags.pack.toNat := joinBytes_toNat ..
  omega

/-- Settles O39: the step stores the unpacked byte. -/
theorem writeFlagsUnpacksTheByte : Obligations.WriteFlagsUnpacksTheByte :=
  fun _ rest b hc => exists_step_host hc (.writeFlags b) rest

/-- Settles O40: each code in turn; a flag's bit in the flags byte is that of the pack layout. -/
theorem hostPortSelectorCodes : Obligations.HostPortSelectorCodes := by
  refine ⟨fun cr hcr s v => ?_, fun s v => ⟨rfl, rfl⟩, fun cp hcp s v => ?_, fun cf hcf s => ?_,
    fun s b => ⟨rfl, rfl⟩⟩
  · simp only [List.mem_cons, List.not_mem_nil, or_false] at hcr
    obtain rfl | rfl | rfl | rfl | rfl | rfl | rfl := hcr <;> exact ⟨rfl, rfl⟩
  · simp only [List.mem_cons, List.not_mem_nil, or_false] at hcp
    obtain rfl | rfl | rfl | rfl := hcp <;> exact ⟨rfl, rfl⟩
  · obtain ⟨hz, hn, hh, hc, -⟩ := packLayout s.rf.flags
    simp only [List.mem_cons, List.not_mem_nil, or_false] at hcf
    obtain rfl | rfl | rfl | rfl := hcf
    · exact ⟨rfl, hz.symm⟩
    · exact ⟨rfl, hn.symm⟩
    · exact ⟨rfl, hh.symm⟩
    · exact ⟨rfl, hc.symm⟩

/-- Settles O41: a read writes nothing, and a second write of a part overwrites the first. -/
theorem hostAccessesAreIdempotent : Obligations.HostAccessesAreIdempotent := by
  intro q s
  cases q with
  | writeReg r v => simp only [hostAccess, State.store, RegisterFile.setReg8_setReg8_self]
  | setPair p v => simp only [hostAccess, State.store, RegisterFile.setPair_setPair_self]
  | _ => rfl

/-- Settles O42: each register and the flags are written by one of the two accesses at most, which gives them a value
whatever the state. -/
theorem disjointHostWritesCommute : Obligations.DisjointHostWritesCommute := by
  intro q q' s hdisj hflags
  refine RegisterFile.eq_of_reg8_of_flags (fun r => ?_) ?_
  · by_cases hq : r ∈ hostWrites q
    · rw [hostAccess_reg8_of_not_mem _ (hdisj r hq)]
      exact hostAccess_reg8_of_mem _ _ hq
    · rw [hostAccess_reg8_of_not_mem _ hq]
      by_cases hq' : r ∈ hostWrites q'
      · exact hostAccess_reg8_of_mem _ _ hq'
      · rw [hostAccess_reg8_of_not_mem _ hq', hostAccess_reg8_of_not_mem _ hq', hostAccess_reg8_of_not_mem _ hq]
  · cases hq : hostWritesFlags q with
    | true =>
      have hq' : hostWritesFlags q' = false := Bool.eq_false_of_not_eq_true fun h => hflags ⟨hq, h⟩
      rw [hostAccess_flags_of_false _ hq']
      exact hostAccess_flags_of_true _ _ hq
    | false =>
      rw [hostAccess_flags_of_false _ hq]
      cases hq' : hostWritesFlags q' with
      | true => exact hostAccess_flags_of_true _ _ hq'
      | false =>
        rw [hostAccess_flags_of_false _ hq', hostAccess_flags_of_false _ hq', hostAccess_flags_of_false _ hq]

end Sys2Proof.Machine
end

section
/-! PROOFS. The caller and the steps: what the caller makes of a status (60_exceptions.md R164), what each kind of
transaction answers (00_scope.md R11), and the invariants of a step: what it keeps, what it may write, when it stops, and
the runs without an error. -/

namespace Sys2Proof.Machine

open Sys2Proof.Safety

/-! ## The caller's reaction (R164, D19) -/

section Reaction

variable {s : State} {st : Status}

theorem State.reactTo_of_halt (h : s.onFault.reaction st = .halt) (f : Fault) : s.reactTo st f = .fault f := by
  rw [reactTo, h]

theorem State.reactTo_of_log (h : s.onFault.reaction st = .logAndContinue) (f : Fault) :
    s.reactTo st f = .next { s with log := s.log ++ [st] } := by
  rw [reactTo, h]

theorem State.reactTo_of_skip (h : s.onFault.reaction st = .skip) (f : Fault) : s.reactTo st f = .next s := by
  rw [reactTo, h]

theorem State.react_of_ok (h : s.reply = .status .ok) : s.react = .next s := by
  rw [react, h]

theorem State.react_of_unsupported {info : Info} (h : s.reply = .status (.unsupportedInstruction info)) :
    s.react = s.reactTo (.unsupportedInstruction info) (.unsupportedInstruction info) := by
  rw [react, h]

theorem State.react_of_ambiguous {i : Instr} (h : s.reply = .status (.ambiguousSemantics i)) :
    s.react = s.reactTo (.ambiguousSemantics i) (.ambiguousSemantics i) := by
  rw [react, h]

theorem State.react_of_error (h : s.reply = .status st) (hne : st ≠ .ok) : ∃ f, s.react = s.reactTo st f := by
  cases st with
  | ok => exact absurd rfl hne
  | unsupportedInstruction info => exact ⟨_, react_of_unsupported h⟩
  | ambiguousSemantics i => exact ⟨_, react_of_ambiguous h⟩

/-- The caller stops exactly on an error that it halts on. -/
theorem State.react_fault_or_next (h : s.reply = .status st) :
    (st ≠ .ok ∧ s.onFault.reaction st = .halt ∧ ∃ f, s.react = .fault f) ∨
    (¬ (st ≠ .ok ∧ s.onFault.reaction st = .halt) ∧ ∃ log, s.react = .next { s with log := log }) := by
  by_cases hne : st = .ok
  · exact .inr ⟨fun hc => hc.1 hne, s.log, react_of_ok (hne ▸ h)⟩
  · obtain ⟨f, hf⟩ := react_of_error h hne
    cases hr : s.onFault.reaction st with
    | halt => exact .inl ⟨hne, rfl, f, hf.trans (reactTo_of_halt hr f)⟩
    | logAndContinue => exact .inr ⟨nofun, _, hf.trans (reactTo_of_log hr f)⟩
    | skip => exact .inr ⟨nofun, _, hf.trans (reactTo_of_skip hr f)⟩

theorem State.react_fault_iff (h : s.reply = .status st) :
    (∃ f, s.react = .fault f) ↔ st ≠ .ok ∧ s.onFault.reaction st = .halt := by
  obtain ⟨hne, hhalt, hfault⟩ | ⟨hgo, log, hnext⟩ := react_fault_or_next h
  · exact iff_of_true hfault ⟨hne, hhalt⟩
  · exact iff_of_false (fun ⟨f, hf⟩ => nomatch hnext.symm.trans hf) hgo

theorem State.react_ne_refused (h : s.reply = .status st) (r : Refusal) : s.react ≠ .refused r := by
  obtain ⟨-, -, f, hfault⟩ | ⟨-, log, hnext⟩ := react_fault_or_next h
  · exact fun hr => nomatch hfault.symm.trans hr
  · exact fun hr => nomatch hnext.symm.trans hr

end Reaction

/-- A policy listed from a function gives that function's reaction on its list, and the general one elsewhere (log entry
13). -/
theorem FaultPolicy.reaction_listed (f : Status → OnFault) (listed : List Status) (other : OnFault) (st : Status) :
    FaultPolicy.reaction { special := listed.map fun st => (st, f st), otherwise := other } st =
      if st ∈ listed then f st else other := by
  induction listed with
  | nil => rfl
  | cons head tail ih =>
    unfold reaction at ih ⊢
    by_cases h : head = st
    · subst h
      simp
    · simpa [h, Ne.symm h] using ih

/-! ## What each kind of transaction answers (R11) -/

/-- The Register File after an Execute of either form; an unassigned word leaves it (R83). -/
def afterTransaction (tr : Transaction) (rf : RegisterFile) : RegisterFile :=
  (executed tr).elim rf fun i => rf.afterExecute i.value

section Transactions

variable {tr : Transaction} {s t : State} {st : Status} {a : HostAccess}

/-- A transaction is Construct, an Execute with a status, an access, or a wire-level access that selects nothing. -/
theorem transaction_cases (tr : Transaction) :
    tr = .construct ∨ (∃ st, statusOfTransaction tr = some st) ∨ (∃ a, accessed tr = some a) ∨
      ∃ q, tr = .wire q ∧ q.access = none := by
  cases tr with
  | construct => exact .inl rfl
  | execute i => exact .inr (.inl ⟨_, rfl⟩)
  | executeWord w => exact .inr (.inl ⟨_, rfl⟩)
  | host q => exact .inr (.inr (.inl ⟨q, rfl⟩))
  | wire q =>
    cases h : q.access with
    | none => exact .inr (.inr (.inr ⟨q, rfl, h⟩))
    | some a => exact .inr (.inr (.inl ⟨a, h⟩))

theorem statusOfTransaction_of_accessed (h : accessed tr = some a) : statusOfTransaction tr = none := by
  cases tr with
  | host q => rfl
  | wire q => rfl
  | _ => cases h

/-- Either form of Execute runs an instruction with that instruction's status, or reports a word that is none's. -/
theorem executed_of_statusOfTransaction (h : statusOfTransaction tr = some st) :
    (∃ i, executed tr = some i ∧ st = statusOf i) ∨
    (executed tr = none ∧ ∃ w, assignedWord w = false ∧ st = .unsupportedInstruction (.word w)) := by
  cases tr with
  | execute i => exact .inl ⟨i, rfl, (Option.some.inj h).symm⟩
  | executeWord w =>
    obtain rfl := Option.some.inj h
    obtain ⟨i, hdec, hst, -⟩ | ⟨hw, hdec, hst, -⟩ := executeWord_cases w
    · exact .inl ⟨i, by rw [executed, hdec], hst⟩
    · exact .inr ⟨by rw [executed, hdec], w, hw, hst⟩
  | _ => cases h

theorem afterTransaction_of_error (h : statusOfTransaction tr = some st) (hne : st ≠ .ok) (rf : RegisterFile) :
    afterTransaction tr rf = rf := by
  obtain ⟨i, hi, rfl⟩ | ⟨hi, -⟩ := executed_of_statusOfTransaction h
  · rw [afterTransaction, hi]
    exact RegisterFile.afterExecute_of_error hne
  · rw [afterTransaction, hi]
    rfl

/-- On a constructed CORE an Execute of either form writes its Register File and status, and the caller reacts. -/
theorem transact_of_status (hc : s.constructed = true) (h : statusOfTransaction tr = some st) :
    transact tr s = State.react { s with rf := afterTransaction tr s.rf, reply := .status st } := by
  cases tr with
  | execute i =>
    obtain rfl := Option.some.inj h
    rw [transact, whenConstructed_of_constructed hc, exec_eq]
    rfl
  | executeWord w =>
    obtain rfl := Option.some.inj h
    rw [transact, whenConstructed_of_constructed hc, afterTransaction, executed]
    obtain ⟨i, hdec, hst, hexec⟩ | ⟨-, hdec, hst, hexec⟩ := executeWord_cases w
    · rw [hexec, exec_eq, hst, hdec]
      rfl
    · rw [hexec, hst, hdec]
      rfl
  | _ => cases h

theorem transact_of_accessed (hc : s.constructed = true) (h : accessed tr = some a) :
    transact tr s = .next (hostAccess a s) := by
  cases tr with
  | host q =>
    obtain rfl := Option.some.inj h
    exact whenConstructed_of_constructed hc _
  | wire q =>
    rw [transact, whenConstructed_of_constructed hc, wireAccess, show q.access = some a from h]
  | _ => cases h

theorem transact_wire_of_none {q : WireAccess} (hc : s.constructed = true) (h : q.access = none) :
    transact (.wire q) s = .refused .registerCode6 := by
  rw [transact, whenConstructed_of_constructed hc, wireAccess, h]

theorem transact_of_unconstructed (hc : s.constructed = false) (h : tr ≠ .construct) :
    transact tr s = .fault .notConstructed := by
  cases tr with
  | construct => exact absurd rfl h
  | _ => simp [transact, whenConstructed, hc]

/-- The ways a transaction answers a next state: Construct; an Execute after whose status the caller went on; an access. -/
theorem transact_next_cases (h : transact tr s = .next t) :
    (tr = .construct ∧ t = s.construct) ∨
    (s.constructed = true ∧ ∃ st log, statusOfTransaction tr = some st ∧
      (log = s.log ∨ st ≠ .ok ∧ log = s.log ++ [st]) ∧
      t = { s with rf := afterTransaction tr s.rf, reply := .status st, log := log }) ∨
    (s.constructed = true ∧ ∃ a, accessed tr = some a ∧ t = hostAccess a s) := by
  obtain rfl | htr := Classical.em (tr = .construct)
  · cases h
    exact .inl ⟨rfl, rfl⟩
  have hc : s.constructed = true := by
    by_contra hc
    rw [transact_of_unconstructed (Bool.eq_false_of_not_eq_true hc) htr] at h
    cases h
  obtain rfl | ⟨st, hst⟩ | ⟨a, ha⟩ | ⟨q, rfl, hq⟩ := transaction_cases tr
  · exact absurd rfl htr
  · rw [transact_of_status hc hst] at h
    obtain rfl | ⟨st', hne, hreply, rfl⟩ := State.react_next h
    · exact .inr (.inl ⟨hc, st, s.log, hst, .inl rfl, rfl⟩)
    · obtain rfl := Reply.status.inj hreply
      exact .inr (.inl ⟨hc, st, _, hst, .inr ⟨hne, rfl⟩, rfl⟩)
  · rw [transact_of_accessed hc ha] at h
    cases h
    exact .inr (.inr ⟨hc, a, ha, rfl⟩)
  · rw [transact_wire_of_none hc hq] at h
    cases h

/-- A transaction that answers a next state leaves the queue and the policy, and a constructed CORE. -/
theorem transact_caller (h : transact tr s = .next t) :
    t.constructed = true ∧ t.pending = s.pending ∧ t.onFault = s.onFault := by
  obtain ⟨-, rfl⟩ | ⟨hc, st, log, -, -, rfl⟩ | ⟨hc, a, -, rfl⟩ := transact_next_cases h
  · exact ⟨rfl, rfl, rfl⟩
  · exact ⟨hc, rfl, rfl⟩
  · obtain ⟨hcon, hpend, hpol, -⟩ := hostAccess_caller a s
    exact ⟨hcon.trans hc, hpend, hpol⟩

/-- An Execute whose status the caller does not halt on goes on, and only the log is the caller's choice. -/
theorem exists_transact_of_not_halt (hc : s.constructed = true) (hst : statusOfTransaction tr = some st)
    (hr : s.onFault.reaction st ≠ .halt) :
    ∃ log, transact tr s = .next { s with rf := afterTransaction tr s.rf, reply := .status st, log := log } := by
  rw [transact_of_status hc hst]
  obtain ⟨-, hhalt, -⟩ | ⟨-, hnext⟩ :=
    State.react_fault_or_next (s := { s with rf := afterTransaction tr s.rf, reply := .status st }) rfl
  · exact absurd hhalt hr
  · exact hnext

/-- The transactions that end in a fault: before Construct, or an Execute whose error the caller halts on. -/
theorem transact_fault_iff :
    (∃ f, transact tr s = .fault f) ↔
      (s.constructed = false ∧ tr ≠ .construct) ∨
      (s.constructed = true ∧ ∃ st, statusOfTransaction tr = some st ∧ st ≠ .ok ∧ s.onFault.reaction st = .halt) := by
  obtain rfl | htr := Classical.em (tr = .construct)
  · simp [transact, statusOfTransaction]
  cases hc : s.constructed with
  | false => simp [transact_of_unconstructed hc htr, htr]
  | true =>
    obtain rfl | ⟨st, hst⟩ | ⟨a, ha⟩ | ⟨q, rfl, hq⟩ := transaction_cases tr
    · exact absurd rfl htr
    · rw [transact_of_status hc hst, State.react_fault_iff rfl]
      simp [hst]
    · simp [transact_of_accessed hc ha, statusOfTransaction_of_accessed ha]
    · simp [transact_wire_of_none hc hq, statusOfTransaction]

/-- The transactions that are refused: a wire-level access whose code selects nothing. -/
theorem transact_refused_iff :
    (∃ r, transact tr s = .refused r) ↔ s.constructed = true ∧ ∃ q, tr = .wire q ∧ q.access = none := by
  obtain rfl | htr := Classical.em (tr = .construct)
  · simp [transact]
  cases hc : s.constructed with
  | false => simp [transact_of_unconstructed hc htr]
  | true =>
    obtain rfl | ⟨st, hst⟩ | ⟨a, ha⟩ | ⟨q, rfl, hq⟩ := transaction_cases tr
    · exact absurd rfl htr
    · rw [transact_of_status hc hst]
      refine iff_of_false (fun ⟨r, hr⟩ => State.react_ne_refused rfl r hr) ?_
      rintro ⟨-, q, rfl, -⟩
      cases hst
    · rw [transact_of_accessed hc ha]
      refine iff_of_false nofun ?_
      rintro ⟨-, q, rfl, hq⟩
      cases hq.symm.trans ha
    · simp [transact_wire_of_none hc hq, hq]

/-- A step on a queue that is written out. -/
theorem step_pending_cons (s : State) (tr : Transaction) (rest : List Transaction) :
    step { s with pending := tr :: rest } = transact tr { s with pending := rest } := rfl

end Transactions

/-! ## Legal statuses and replies (R160, R24) -/

theorem legalStatus_statusOf (i : Instr) : legalStatus (statusOf i) = true := by
  obtain ⟨-, -, hst⟩ | ⟨hres, hst⟩ | ⟨hsp, hst⟩ := statusOf_cases i
  · rw [hst]
    rfl
  · rw [hst]
    exact hres
  · rw [hst]
    exact decide_eq_true hsp

theorem legalStatus_of_statusOfTransaction {tr : Transaction} {st : Status} (h : statusOfTransaction tr = some st) :
    legalStatus st = true := by
  obtain ⟨i, -, rfl⟩ | ⟨-, w, hw, rfl⟩ := executed_of_statusOfTransaction h
  · exact legalStatus_statusOf i
  · rw [legalStatus, hw]
    rfl

theorem Flags.pack_and_low (f : Flags) : f.pack &&& 0x0F#8 = 0#8 := by
  obtain ⟨z, n, h, c⟩ := f
  revert z n h c
  decide

theorem RegisterFile.pair_af_and_low (rf : RegisterFile) : rf.pair .af &&& 0x000F#16 = 0#16 :=
  calc joinBytes rf.a rf.flags.pack &&& joinBytes 0x00#8 0x0F#8
      = joinBytes (rf.a &&& 0x00#8) (rf.flags.pack &&& 0x0F#8) := joinBytes_and_joinBytes ..
    _ = 0#16 := by rw [BitVec.and_zero, Flags.pack_and_low]; rfl

/-- What an access answers is legal: the bits that read as zero do. -/
theorem legalReply_hostAccess (a : HostAccess) (s : State) : legalReply (hostAccess a s).reply = true := by
  cases a with
  | getPair p =>
    cases p with
    | af => exact beq_iff_eq.mpr s.rf.pair_af_and_low
    | _ => rfl
  | readFlags => exact beq_iff_eq.mpr s.rf.flags.pack_and_low
  | _ => rfl

/-- No access answers a status. -/
theorem errorReply_hostAccess (a : HostAccess) (s : State) : errorReply (hostAccess a s).reply = false := by
  cases a <;> rfl

theorem hostAccess_reply_of_write {r : ArithmeticTarget} {v : Byte} {p : Pair} {w : Word} {b : Byte} {q : HostAccess}
    (h : q ∈ [HostAccess.writeReg r v, .setPair p w, .writeFlags b]) (s : State) : (hostAccess q s).reply = .done := by
  simp only [List.mem_cons, List.not_mem_nil, or_false] at h
  obtain rfl | rfl | rfl := h <;> rfl

/-! ## What a transaction may write -/

section MayWrite

variable {tr : Transaction} {r : ArithmeticTarget} {rf : RegisterFile}

theorem mem_mayWrite_construct (r : ArithmeticTarget) : r ∈ mayWrite .construct := by
  cases r <;> decide

theorem mayWrite_of_ne_construct (h : tr ≠ .construct) :
    mayWrite tr = ((executed tr).map fun i => destinations i.value).getD [] ++ ((accessed tr).map hostWrites).getD [] :=
  if_neg h

theorem not_mem_destinations_of_not_mem_mayWrite {i : Instr} (hi : executed tr = some i) (h : r ∉ mayWrite tr) :
    r ∉ destinations i.value := by
  have hne : tr ≠ .construct := by rintro rfl; cases hi
  rw [mayWrite_of_ne_construct hne, hi] at h
  exact fun hr => h (List.mem_append_left _ hr)

theorem not_mem_hostWrites_of_not_mem_mayWrite {a : HostAccess} (ha : accessed tr = some a) (h : r ∉ mayWrite tr) :
    r ∉ hostWrites a := by
  have hne : tr ≠ .construct := by rintro rfl; cases ha
  rw [mayWrite_of_ne_construct hne, ha] at h
  exact fun hr => h (List.mem_append_right _ hr)

theorem reg8_afterTransaction (h : r ∉ mayWrite tr) : (afterTransaction tr rf).reg8 r = rf.reg8 r := by
  unfold afterTransaction
  cases hi : executed tr with
  | none => rfl
  | some i => exact RegisterFile.reg8_afterExecute (not_mem_destinations_of_not_mem_mayWrite hi h)

theorem flags_afterTransaction (h : mayWriteFlags tr = false) : (afterTransaction tr rf).flags = rf.flags := by
  unfold afterTransaction
  cases hi : executed tr with
  | none => rfl
  | some i =>
    have herr : statusOf i ≠ .ok := by
      intro hok
      simp [mayWriteFlags, hi, hok] at h
    rw [Option.elim_some, RegisterFile.afterExecute_of_error herr]

theorem hostWritesFlags_of_mayWriteFlags {a : HostAccess} (ha : accessed tr = some a) (h : mayWriteFlags tr = false) :
    hostWritesFlags a = false := by
  simp only [mayWriteFlags, ha, Bool.or_eq_false_iff] at h
  obtain ⟨-, hflags⟩ := h
  exact hflags

end MayWrite

/-! ## Runs of clean transactions -/

/-- The caller is as CleanTransactionsNeverErr asks: on a constructed CORE, with no error returned and none to come. -/
def CleanState (s : State) : Prop :=
  s.constructed = true ∧ errorReply s.reply = false ∧ ∀ tr ∈ s.pending, cleanTransaction tr = true

theorem cleanTransaction_cases {tr : Transaction} (h : cleanTransaction tr = true) :
    tr = .construct ∨ statusOfTransaction tr = some .ok ∨ ∃ a, accessed tr = some a := by
  cases tr with
  | construct => exact .inl rfl
  | execute i => exact .inr (.inl (congrArg some (beq_iff_eq.mp h)))
  | executeWord w => exact .inr (.inl (congrArg some (beq_iff_eq.mp h)))
  | host q => exact .inr (.inr ⟨q, rfl⟩)
  | wire q => exact .inr (.inr (Option.isSome_iff_exists.mp h))

theorem exists_transact_of_clean {tr : Transaction} {s : State} (hc : s.constructed = true)
    (h : cleanTransaction tr = true) : ∃ t, transact tr s = .next t ∧ errorReply t.reply = false := by
  obtain rfl | hok | ⟨a, ha⟩ := cleanTransaction_cases h
  · exact ⟨_, rfl, rfl⟩
  · exact ⟨_, (transact_of_status hc hok).trans (State.react_of_ok rfl), rfl⟩
  · exact ⟨_, transact_of_accessed hc ha, errorReply_hostAccess a s⟩

/-- A step from a clean state answers a clean state. -/
theorem exists_step_of_cleanState {s : State} (h : CleanState s) : ∃ t, step s = .next t ∧ CleanState t := by
  obtain ⟨hc, hreply, hclean⟩ := h
  cases hp : s.pending with
  | nil => exact ⟨s, step_nil hp, hc, hreply, hclean⟩
  | cons tr rest =>
    rw [hp, List.forall_mem_cons] at hclean
    obtain ⟨t, ht, hnone⟩ := exists_transact_of_clean (s := { s with pending := rest }) hc hclean.1
    obtain ⟨hcon, hpend, -⟩ := transact_caller ht
    exact ⟨t, (step_cons hp).trans ht, hcon, hnone, hpend ▸ hclean.2⟩

theorem cleanRun_of_cleanState (k : Nat) {s : State} (h : CleanState s) : CleanRun k s := by
  induction k generalizing s with
  | zero => trivial
  | succ k ih =>
    obtain ⟨t, ht, hclean⟩ := exists_step_of_cleanState h
    have ⟨_, hreply, _⟩ := hclean
    exact ⟨t, ht, hreply, ih hclean⟩

/-! ## The statements of the family -/

/-- Settles O47: a reply is the status of an Execute, an access's or none, and a log grows by such a status at most. -/
theorem everyStepKeepsTheInvariant : Obligations.EveryStepKeepsTheInvariant := by
  intro s t hinv ht
  have ⟨_, _, hlog⟩ := hinv
  cases hp : s.pending with
  | nil =>
    rw [step_nil hp] at ht
    cases ht
    exact hinv
  | cons tr rest =>
    rw [step_cons hp] at ht
    refine ⟨(transact_caller ht).1, ?_⟩
    obtain ⟨-, rfl⟩ | ⟨-, st, log, hst, hgrows, rfl⟩ | ⟨-, a, -, rfl⟩ := transact_next_cases ht
    · exact ⟨rfl, hlog⟩
    · have hlegal := legalStatus_of_statusOfTransaction hst
      refine ⟨hlegal, ?_⟩
      obtain rfl | ⟨hne, rfl⟩ := hgrows
      · exact hlog
      · exact List.forall_mem_append.mpr ⟨hlog, List.forall_mem_singleton.mpr ⟨hlegal, hne⟩⟩
    · obtain ⟨-, -, -, hsame⟩ := hostAccess_caller a { s with pending := rest }
      exact ⟨legalReply_hostAccess .., hsame.symm ▸ hlog⟩

/-- Settles O48: the frames of Execute and of the host's accesses; B to E are no destination. -/
theorem onlyNamedTransactionsWrite : Obligations.OnlyNamedTransactionsWrite := by
  refine ⟨fun s t tr rest hp ht => ?_, fun i r hr => ?_⟩
  · rw [step_cons hp] at ht
    obtain ⟨rfl, -⟩ | ⟨-, st, log, -, -, rfl⟩ | ⟨-, a, ha, rfl⟩ := transact_next_cases ht
    · exact ⟨fun r hr => absurd (mem_mayWrite_construct r) hr, nofun⟩
    · exact ⟨fun r hr => reg8_afterTransaction hr, flags_afterTransaction⟩
    · exact ⟨fun r hr => hostAccess_reg8_of_not_mem _ (not_mem_hostWrites_of_not_mem_mayWrite ha hr),
        fun hf => hostAccess_flags_of_false _ (hostWritesFlags_of_mayWriteFlags ha hf)⟩
  · rw [mayWrite_of_ne_construct (tr := .execute i) nofun]
    exact fun hd => not_mem_destinations_of_mem_bcde hr ((List.mem_append.mp hd).resolve_right nofun)

/-- Settles O50: the hypotheses say that the state is clean, and a clean state runs clean for any number of steps. -/
theorem cleanTransactionsNeverErr : Obligations.CleanTransactionsNeverErr :=
  fun k _ hc hreply hclean => cleanRun_of_cleanState k ⟨hc, hreply, hclean⟩

/-- Settles O24: the reactions one by one, and the policy that is listed from a function. -/
theorem callerReactsAsItsPolicySays : Obligations.CallerReactsAsItsPolicySays := by
  refine ⟨fun s hok => State.react_of_ok hok, fun s st hst hne => ?_,
    fun react listed other => ⟨fun st hmem => ?_, fun st hno => ?_⟩⟩
  · obtain ⟨f, hf⟩ := State.react_of_error hst hne
    refine ⟨fun hr => hf.trans (State.reactTo_of_skip hr f), fun hr => hf.trans (State.reactTo_of_log hr f),
      fun hr info hinfo => ?_, fun hr i hi => ?_⟩
    · subst hinfo
      exact (State.react_of_unsupported hst).trans (State.reactTo_of_halt hr _)
    · subst hi
      exact (State.react_of_ambiguous hst).trans (State.reactTo_of_halt hr _)
  · rw [FaultPolicy.reaction_listed, if_pos hmem]
  · rw [FaultPolicy.reaction_listed, if_neg hno]

/-- Settles O25: the error writes nothing but the reply and the log, which the next Execute does not see. -/
theorem coreGoesOnAfterAnError : Obligations.CoreGoesOnAfterAnError := by
  intro i j s rest hc hne hr
  obtain ⟨log, hstep⟩ :=
    exists_transact_of_not_halt (tr := .execute i) (s := { s with pending := .execute j :: rest }) hc rfl hr
  rw [afterTransaction_of_error (st := statusOf i) rfl hne] at hstep
  exact ⟨_, _, _, hstep, rfl, hc, rfl, exec_eq j _, exec_eq j s, rfl, rfl⟩

/-- Settles O44: a step runs the oldest transaction on the rest of the queue, and no transaction touches the queue. -/
theorem stepTakesTheOldestTransaction : Obligations.StepTakesTheOldestTransaction :=
  ⟨fun _ hp => step_nil hp, fun _ _ _ _ hp ht => (transact_caller ((step_cons hp).symm.trans ht)).2⟩

/-- Settles O49: the step is the transaction on the rest of the queue. -/
theorem stepStopsExactlyWhen : Obligations.StepStopsExactlyWhen := by
  intro s tr rest hp
  rw [step_cons hp]
  exact ⟨transact_fault_iff, transact_refused_iff⟩

/-- Settles O2: Construct is no guarded transaction, and `State.construct` says what it leaves. -/
theorem constructIgnoresEarlierState : Obligations.ConstructIgnoresEarlierState :=
  fun s rest => ⟨_, step_pending_cons s .construct rest, rfl, rfl, rfl, rfl, rfl, rfl⟩

/-- Settles O30: a stream is decoded word for word, and the step of 0xCB is that of any erring transaction. -/
theorem prefixWordConsumesNothing : Obligations.PrefixWordConsumesNothing := by
  refine ⟨fun w ws => rfl, fun s w rest hc hr => ?_⟩
  have hst : statusOfTransaction (.executeWord 0xCB#8) = some (.unsupportedInstruction (.word 0xCB#8)) := by decide
  obtain ⟨log, hstep⟩ := exists_transact_of_not_halt (s := { s with pending := .executeWord w :: rest }) hc hst hr
  rw [afterTransaction_of_error hst nofun] at hstep
  exact ⟨_, hstep, rfl, rfl, rfl⟩

/-- Settles O43: on a constructed CORE the guard is open, and ExecuteWord runs what the word decodes to. -/
theorem stepRunsTheDecodedInstruction : Obligations.StepRunsTheDecodedInstruction := by
  refine ⟨fun s rest w i hc hi => ?_, fun s rest i hc => ?_, fun s nbits w i hi => ?_⟩
  · exact (whenConstructed_of_constructed hc _).trans (by rw [executeWord, hi])
  · exact whenConstructed_of_constructed hc _
  · rw [step_withFetchWord, executeWord, decode_of_decodeTableWord hi]

/-- Settles O45: the guard is shut for every transaction but Construct. -/
theorem unconstructedInstanceIsStuck : Obligations.UnconstructedInstanceIsStuck := by
  refine fun s tr rest hc => ⟨transact_of_unconstructed (s := { s with pending := rest }) hc, ?_⟩
  rintro rfl
  exact ⟨_, step_pending_cons s .construct rest, rfl, rfl⟩

/-- Settles O46: reset is constructed, with no reply and an empty log. -/
theorem resetMeetsTheInvariant : Obligations.ResetMeetsTheInvariant :=
  ⟨rfl, rfl, nofun⟩

/-- Settles O51: Construct and each host write reply `done`, by whichever port. -/
theorem writesReturnNothing : Obligations.WritesReturnNothing := by
  refine fun s rest => ⟨⟨_, step_pending_cons s .construct rest, rfl⟩, fun hc r v p w b q hq => ?_⟩
  have hdone : (hostAccess q { s with pending := rest }).reply = .done := hostAccess_reply_of_write hq _
  exact ⟨⟨_, step_host hc q rest, hdone⟩, fun q' hq' => ⟨_, transact_of_accessed (tr := .wire q') hc hq', hdone⟩⟩

end Sys2Proof.Machine
end
